-- ==== Sys2Proof/Word.lean ====
section
/-! DEFINITION. The word types of the block: bytes and 16-bit command words (00_scope R9), clock
instants in microseconds (10_state R44) and exact rational volts (00_scope R10). -/

namespace Sys2Proof

/-- One byte of the frame buffer (20_memory R60). -/
abbrev Byte := BitVec 8

/-- One command word of a frame (30_encoding R81). -/
abbrev Word16 := BitVec 16

/-- An answer of the monotonic clock: an unsigned 64-bit count of microseconds (10_state R44). -/
abbrev Instant := BitVec 64

/-- A voltage: an exact rational number of volts (00_scope R10). -/
abbrev Volts := Rat

/-- The bytes of one command frame, lowest offset first (30_encoding R80). -/
abbrev Frame := List Byte

end Sys2Proof
end

