-- ==== Sys2Proof/Config.lean ====
section
/-! DEFINITION. The configuration parameters (00_scope R7), which are the block's read-only control
registers (10_state R38), and the free values: the answers of the environment that no rule fixes
(40_voltage_sampler R105, 10_state R44, 20_memory R76). -/

namespace Sys2Proof

/-- The pattern of a same-state solenoid request, `SOL_REFRESH` (00_scope R7, 90_conflicts C6). -/
inductive SolRefresh where
  | statePattern
  | bothRest
  deriving DecidableEq, Repr

/-- The configuration record: one field per parameter of 00_scope R7 (`N` and `V_SCALE` are derived). -/
structure Config where
  /-- `NUM_MAIN` (M). -/
  numMain : Nat
  /-- `NUM_SUB` (S). -/
  numSub : Nat
  /-- `DUTY_MAX`. -/
  dutyMax : Int
  /-- `DUTY_DIFF_MAX`. -/
  dutyDiffMax : Int
  /-- `PWM_RESOLUTION`, also the rest level. -/
  pwmResolution : Int
  /-- `V_MIN`. -/
  vMin : Volts
  /-- `V_REF_MAX`. -/
  vRefMax : Volts
  /-- `ADC_FULL_SCALE`. -/
  adcFullScale : Int
  /-- `RAW_MAX`. -/
  rawMax : Nat
  /-- `EMA_ALPHA`. -/
  emaAlpha : Rat
  /-- `V_FILT_INIT`. -/
  vFiltInit : Volts
  /-- `EMA_CLAMP_STATE`. -/
  emaClampState : Bool
  /-- `FILT_PERIOD_K`. -/
  filtPeriodK : Nat
  /-- `SOLENOID_TIME`, microseconds. -/
  solenoidTime : Nat
  /-- `SOL_FIRST_GATED`. -/
  solFirstGated : Bool
  /-- `SOL_REFRESH`. -/
  solRefresh : SolRefresh
  /-- `DIR_LEVEL_NEG`: the electrical level of a direction pin for a negative duty. -/
  dirLevelNeg : Bool
  /-- `CYCLE_PERIOD_US`; no rule reads it (70_reset_and_hazards R242, log 17). -/
  cyclePeriodUs : Nat
  /-- `GATE_EN`. -/
  gateEn : Bool
  /-- `V_SCALE_GATE`. -/
  vScaleGate : Rat
  /-- `GATE_POLL_US`; no rule reads it (44_decoder_and_cycle R187, log 17). -/
  gatePollUs : Nat
  deriving DecidableEq, Repr

/-- `N = M + S`, the words per frame (00_scope R7). -/
def Config.numWords (c : Config) : Nat := c.numMain + c.numSub

/-- The reference configuration (00_scope R7). Parameters that R7 leaves OPEN have a value of the
model's: DESIGN CHOICE, unsafe, log 2. -/
def Config.reference : Config where
  numMain := 2
  numSub := 2
  dutyMax := 32766
  dutyDiffMax := 70
  pwmResolution := 125
  vMin := mkRat 228 10
  vRefMax := mkRat 363 10
  adcFullScale := 4095
  rawMax := 65535
  emaAlpha := mkRat 99 100
  vFiltInit := 0
  emaClampState := false
  filtPeriodK := 4
  solenoidTime := 10000
  solFirstGated := false
  solRefresh := .statePattern
  dirLevelNeg := true
  cyclePeriodUs := 1000
  gateEn := false
  vScaleGate := mkRat 363 40950
  gatePollUs := 1000

/-- FREE VALUE: what the ADC answers to the `n`-th draw of the run when the script holds no answer
(40_voltage_sampler R105; DESIGN CHOICE, safe, log 4). -/
opaque Config.freeRaw : Nat → Nat

/-- FREE VALUE: what the secondary voltage source answers to the `n`-th draw when the script holds no
answer (44_decoder_and_cycle R187; DESIGN CHOICE, safe, log 4). -/
opaque Config.freeGateRaw : Nat → Nat

/-- FREE VALUE: what the clock answers to the `n`-th draw when the script holds no answer
(10_state R44; DESIGN CHOICE, safe, log 4). -/
opaque Config.freeNow : Nat → Instant

/-- FREE VALUE: whether the transport delivers a frame before the fetch that is draw `n`, when the
script says nothing of it (20_memory R76; DESIGN CHOICE, safe, log 4). -/
opaque Config.freeDelivers : Nat → Bool

/-- FREE VALUE: byte `a` of the frame delivered before the fetch that is draw `n` (20_memory R76;
DESIGN CHOICE, safe, log 4). -/
opaque Config.freeByte : Nat → Nat → Byte

end Sys2Proof
end

