-- ==== Sys2Proof/Syntax.lean ====
section
/-! DEFINITION. The operations of the block: one constructor per row of spec/opcode_table.json
(30_encoding R83, R84, R90). -/

namespace Sys2Proof

/-- The sixteen operations. The first four are the ones a frame word selects; the sequencer issues
the others (30_encoding R90). -/
inductive Instr where
  /-- `SUB_SOL_ON(s)` (43_sub_channel R154). -/
  | subSolOn (s : Nat)
  /-- `SUB_SOL_OFF(s)` (43_sub_channel R155). -/
  | subSolOff (s : Nat)
  /-- `SUB_MOTOR(s, d)` (43_sub_channel R151). -/
  | subMotor (s : Nat) (d : Int)
  /-- `MAIN_DRIVE(m, d)` (42_main_channel R130). -/
  | mainDrive (m : Nat) (d : Int)
  /-- `CONFIGURE` (44_decoder_and_cycle R186). -/
  | configure
  /-- `STARTUP_GATE`, one poll (44_decoder_and_cycle R187). -/
  | startupGate
  /-- `POWER_ENABLE` (44_decoder_and_cycle R188). -/
  | powerEnable
  /-- `VSAMPLE` (40_voltage_sampler R100). -/
  | vsample
  /-- `VSAMPLE_FILT` (40_voltage_sampler R101). -/
  | vsampleFilt
  /-- `FETCH_FRAME` (44_decoder_and_cycle R181). -/
  | fetchFrame
  /-- `DECODE` (44_decoder_and_cycle R180). -/
  | decode
  /-- `SLEW_LIMIT(req, prev, step)` (41_slew_limiter R120). -/
  | slewLimit (req prev step : Int)
  /-- `SOLENOID_SWITCH(s, targetOn)` (43_sub_channel R153). -/
  | solenoidSwitch (s : Nat) (targetOn : Bool)
  /-- `SUB_DISPATCH(s, d)` (43_sub_channel R156). -/
  | subDispatch (s : Nat) (d : Int)
  /-- `SLEEP` (44_decoder_and_cycle R185). -/
  | sleep
  /-- `CONTROL_CYCLE` (44_decoder_and_cycle R182). -/
  | controlCycle
  deriving DecidableEq, Repr

end Sys2Proof
end

