-- ==== Sys2Proof/WellFormed.lean ====
section
/-! DEFINITION. Which configurations are legal (00_scope R7, R8) and which instructions are well
formed: operands in the ranges that the operations' rules give (42_main_channel R130,
43_sub_channel R151 to R156, 41_slew_limiter R120). -/

namespace Sys2Proof

/-- A configuration is legal when the parameters have values of R7's "legal values" column and R8's
bounds hold. R8's `V_SCALE > 0` is the two conjuncts `0 < V_REF_MAX`, `0 < ADC_FULL_SCALE` of R7.
R7's positive `V_SCALE_GATE` and `CYCLE_PERIOD_US` are in neither R8 nor any denominator, and are
checked here as R7 types them (DEDUCED, safe, log 18). -/
def Config.legal (c : Config) : Bool :=
  decide (1 ≤ c.dutyMax) && decide (c.dutyMax ≤ 32767)
    && decide (0 ≤ c.dutyDiffMax)
    && decide (1 ≤ c.pwmResolution)
    && decide (0 < c.vMin)
    && decide (0 < c.vRefMax) && decide (0 < c.adcFullScale)
    && decide (0 ≤ c.emaAlpha) && decide (c.emaAlpha ≤ 1)
    && decide (1 ≤ c.filtPeriodK)
    && decide (1 ≤ c.numWords)
    && decide (0 < c.vScaleGate)
    && decide (0 < c.cyclePeriodUs)

/-- A duty as `sext_16` gives it (00_scope R9, R10). -/
abbrev inWordRange (d : Int) : Prop := -32768 ≤ d ∧ d ≤ 32767

/-- `|d| = DUTY_MAX + 1`, the magnitude of the sentinel (30_encoding R84). -/
abbrev isSentinel (c : Config) (d : Int) : Prop := (d.natAbs : Int) = c.dutyMax + 1

/-- A well-formed instruction of a machine with configuration `c`. -/
def Instr.wf (c : Config) : Instr → Bool
  | .subSolOn s => decide (s < c.numSub)
  | .subSolOff s => decide (s < c.numSub)
  | .subMotor s d => decide (s < c.numSub) && decide (inWordRange d) && !decide (isSentinel c d)
  | .mainDrive m d => decide (m < c.numMain) && decide (inWordRange d)
  | .configure => true
  | .startupGate => true
  | .powerEnable => true
  | .vsample => true
  | .vsampleFilt => true
  | .fetchFrame => true
  | .decode => true
  | .slewLimit req prev step => decide (inWordRange req) && decide (inWordRange prev) && decide (0 ≤ step)
  | .solenoidSwitch s _ => decide (s < c.numSub)
  | .subDispatch s d => decide (s < c.numSub) && decide (inWordRange d)
  | .sleep => true
  | .controlCycle => true

end Sys2Proof
end

