-- ==== Sys2Proof/Decode.lean ====
section
/-! DEFINITION. The word decoder and the encoder (30_encoding R80 to R93): slot classes, the two
decode rules, the sentinel words, and the byte order of a word in a frame (20_memory R61). -/

namespace Sys2Proof

/-- `sext_16` (00_scope R9). -/
def sext16 (w : Word16) : Int := w.toInt

/-- `enc_16` (00_scope R9). -/
def enc16 (v : Int) : Word16 := BitVec.ofInt 16 v

/-- The word with low byte `lo` at the even offset and high byte `hi` after it (20_memory R61). -/
def wordOfBytes (lo hi : Byte) : Word16 := hi ++ lo

/-- The byte at a word's even offset (20_memory R63). -/
def lowByte (w : Word16) : Byte := w.extractLsb' 0 8

/-- The byte at a word's odd offset (20_memory R63). -/
def highByte (w : Word16) : Byte := w.extractLsb' 8 8

/-- A slot of the frame with its class (30_encoding R82). -/
inductive Slot where
  | main (m : Nat)
  | sub (s : Nat)
  deriving DecidableEq, Repr

/-- The class of word `i` of a frame (30_encoding R82, 20_memory R68); a frame has `N` words. -/
def slotAt (c : Config) (i : Nat) : Option Slot :=
  if i < c.numMain then some (.main i)
  else if i < c.numWords then some (.sub (i - c.numMain))
  else none

/-- The operation a sub-slot word selects (30_encoding R84). -/
def selectSub (c : Config) (s : Nat) (d : Int) : Instr :=
  if isSentinel c d ∧ 0 < d then .subSolOn s
  else if isSentinel c d then .subSolOff s
  else .subMotor s d

/-- The operation that duty `d` selects in a slot (30_encoding R83, R84). -/
def select (c : Config) : Slot → Int → Instr
  | .main m, d => .mainDrive m d
  | .sub s, d => selectSub c s d

/-- Why bytes are no instruction. No 16-bit pattern is rejected (30_encoding R88): only bytes that are
no word, or a position that is no slot. -/
inductive DecodeError where
  /-- Fewer than two bytes. -/
  | truncated
  /-- The frame of this configuration has no such word. -/
  | noSuchSlot
  deriving DecidableEq, Repr

/-- Decode the word that starts a list of bytes, as word `i` of a frame: the instruction and the
remaining bytes (30_encoding R82 to R86). -/
def decode (c : Config) (i : Nat) : List Byte → Except DecodeError (Instr × List Byte)
  | lo :: hi :: rest =>
    match slotAt c i with
    | some slot => .ok (select c slot (sext16 (wordOfBytes lo hi)), rest)
    | none => .error .noSuchSlot
  | _ => .error .truncated

/-- The duty that spells an instruction: none for the operations the sequencer issues (30_encoding
R90) and for `SUB_SOL_ON` when `DUTY_MAX + 1` is no 16-bit duty (30_encoding R85). -/
def encodeDuty (c : Config) : Instr → Option Int
  | .subSolOn _ => if c.dutyMax + 1 ≤ 32767 then some (c.dutyMax + 1) else none
  | .subSolOff _ => some (-(c.dutyMax + 1))
  | .subMotor _ d => some d
  | .mainDrive _ d => some d
  | .configure => none
  | .startupGate => none
  | .powerEnable => none
  | .vsample => none
  | .vsampleFilt => none
  | .fetchFrame => none
  | .decode => none
  | .slewLimit _ _ _ => none
  | .solenoidSwitch _ _ => none
  | .subDispatch _ _ => none
  | .sleep => none
  | .controlCycle => none

/-- The position in the frame of the word that spells an instruction (30_encoding R82). -/
def slotIndex (c : Config) : Instr → Option Nat
  | .subSolOn s => some (c.numMain + s)
  | .subSolOff s => some (c.numMain + s)
  | .subMotor s _ => some (c.numMain + s)
  | .mainDrive m _ => some m
  | .configure => none
  | .startupGate => none
  | .powerEnable => none
  | .vsample => none
  | .vsampleFilt => none
  | .fetchFrame => none
  | .decode => none
  | .slewLimit _ _ _ => none
  | .solenoidSwitch _ _ => none
  | .subDispatch _ _ => none
  | .sleep => none
  | .controlCycle => none

/-- The bytes of a word in buffer order (20_memory R63, 30_encoding R80). -/
def bytesOf (w : Word16) : List Byte := [lowByte w, highByte w]

/-- The bytes that spell a well-formed instruction (30_encoding R83 to R86). -/
def encode (c : Config) (i : Instr) : Option (List Byte) := (encodeDuty c i).map fun d => bytesOf (enc16 d)

/-- The instruction the decoder reads from a table word of the reference configuration, laid out as
the buffer stores it. A word alone does not say its slot class: it is read in the first sub slot, the
class of three of the four encoded rows (DESIGN CHOICE, log 13). A row without bits, or with more bits
than a word has, gives none. -/
def decodeTableWord (nbits w : Nat) : Option Instr :=
  if nbits = 0 ∨ 16 < nbits then none
  else
    match decode Config.reference Config.reference.numMain (bytesOf (BitVec.ofNat 16 (w % 2 ^ nbits))) with
    | .ok (i, _) => some i
    | .error _ => none

end Sys2Proof
end

