-- ==== Sys2Proof/Machine/State.lean ====
section
/-! DEFINITION. The state of the block (10_state R20), the record of its outputs (00_scope R13), its
environment as plain data, the reasons a step can stop, and the state after reset. -/

namespace Sys2Proof.Machine

/-- `PHASE` (10_state R22). -/
inductive Phase where
  | configure
  | gate
  | loop
  deriving DecidableEq, Repr

/-- The MODEL's own: which operation of CONTROL_CYCLE's pseudocode the sequencer issues next
(44_decoder_and_cycle R182; DESIGN CHOICE, log 8). `slot i` is the channel operation of frame word `i`:
stage 4 for `i < M`, stage 5 after it (44_decoder_and_cycle R184). -/
inductive Stage where
  | vsample
  | vsampleFilt
  | fetch
  | decode
  | slot (i : Nat)
  | sleep
  deriving DecidableEq, Repr

/-- The symbolic value of a direction output (10_state R25). -/
inductive Dir where
  | nonneg
  | neg
  deriving DecidableEq, Repr

/-- The two PWM pins of a sub channel (10_state R27, R28). -/
inductive Side where
  | a
  | b
  deriving DecidableEq, Repr

/-- `SOL_STATE` (10_state R29). -/
inductive SolState where
  | uninit
  | off
  | on
  deriving DecidableEq, Repr

/-- The registers of one main channel (10_state R23, R24, R25). -/
structure MainChan where
  /-- `MAIN_PREV[m]`. -/
  prev : Int
  /-- `MAIN_LEVEL[m]`. -/
  level : Int
  /-- `MAIN_DIR[m]`. -/
  dir : Dir
  deriving DecidableEq, Repr

/-- The registers of one sub channel (10_state R26 to R30). -/
structure SubChan where
  /-- `SUB_PREV[s]`. -/
  prev : Int
  /-- `SUB_ACTIVE[s]`. -/
  active : Side
  /-- `SUB_LEVEL_A[s]`. -/
  levelA : Int
  /-- `SUB_LEVEL_B[s]`. -/
  levelB : Int
  /-- `SOL_STATE[s]`. -/
  sol : SolState
  /-- `SOL_T0[s]`. -/
  t0 : Instant
  deriving DecidableEq, Repr

/-- A PWM output: a main channel's pin, or pin A or B of a sub channel. -/
inductive Pin where
  | main (m : Nat)
  | sub (s : Nat) (x : Side)
  deriving DecidableEq, Repr

/-- A write event on an output port, as the output layer records it (00_scope R12, R13). -/
inductive Event where
  /-- `PinWrite(p, lvl)`. -/
  | pinWrite (p : Pin) (level : Int)
  /-- `DirWrite(m, s)`. -/
  | dirWrite (m : Nat) (d : Dir)
  /-- `PowerEnable()`. -/
  | powerEnable
  deriving DecidableEq, Repr

/-- The MODEL's own: what the environment will answer, as plain data (log 4, 5, 6, 7). A draw takes
the first answer of its script; with an empty script it takes a free value of Config. -/
structure Env where
  /-- Answers to `DrawRaw`, next first (40_voltage_sampler R105). -/
  adc : List Nat
  /-- Answers to `DrawRawGate`, next first (44_decoder_and_cycle R187). -/
  gateAdc : List Nat
  /-- Answers to `DrawNow`, next first (10_state R44). -/
  clock : List Instant
  /-- For each coming FETCH_FRAME, the frames delivered since the fetch before it, oldest first
  (20_memory R76). -/
  deliveries : List (List Frame)
  /-- The last clock answer: the next is not smaller (10_state R44). -/
  lastNow : Instant
  /-- The number of draws made: what the free values are applied to. -/
  draws : Nat
  deriving DecidableEq, Repr

/-- The state of the block. -/
structure State where
  /-- The configuration registers (10_state R38): no operation writes them. -/
  cfg : Config
  /-- `PHASE` (10_state R22). -/
  phase : Phase
  /-- The MODEL's own: the next stage of the control cycle (log 8). -/
  stage : Stage
  /-- `CYCLE_N` (10_state R22). -/
  cycleN : Nat
  /-- The main file, one entry per main channel (10_state R43). -/
  mains : List MainChan
  /-- The sub file, one entry per sub channel (10_state R43). -/
  subs : List SubChan
  /-- `V_NOW` (10_state R31). -/
  vNow : Volts
  /-- Whether `V_NOW` has been written since reset (10_state R31, "unwritten"). -/
  vNowWritten : Bool
  /-- `EMA_STATE` (10_state R32). -/
  emaState : Volts
  /-- `V_FILT` (10_state R33). -/
  vFilt : Volts
  /-- Whether `V_FILT` has been written since reset (10_state R33, "unwritten"). -/
  vFiltWritten : Bool
  /-- `F_RANGE` (10_state R34). -/
  fRange : Bool
  /-- `POWER_EN` (10_state R35). -/
  powerEn : Bool
  /-- `FRAME_BUF` (10_state R36): the bytes that are not 0x00, addresses strictly rising (log 21). -/
  frame : List Host.Cell
  /-- The transport's pending frame, if any (20_memory R76). -/
  pending : Option Frame
  /-- The MODEL's own: the duties DECODE returned, a transient of the cycle (44_decoder_and_cycle
  R180, R182; log 9). -/
  duty : List Int
  /-- The MODEL's own: what the last SLEW_LIMIT operation returned (41_slew_limiter R120; log 9). -/
  slewRet : Int
  /-- The write events issued so far, oldest first (44_decoder_and_cycle R190). -/
  events : List Event
  /-- The MODEL's own: the environment's script (log 4). -/
  env : Env
  deriving DecidableEq, Repr

/-- Why the machine stops. None is the hardware's (60_exceptions R210); no run of a legal machine from
reset reaches one (log 12). -/
inductive Fault where
  /-- A channel operation names a channel the machine does not have; raised by MAIN_DRIVE, SUB_MOTOR,
  SUB_SOL_ON, SUB_SOL_OFF, SOLENOID_SWITCH and SUB_DISPATCH. Safe: the rules give channel indices
  `m < M` and `s < S` only (42_main_channel R130, 43_sub_channel R151). -/
  | noSuchChannel
  /-- A read outside the frame buffer's `2N` bytes; raised by DECODE. Safe: such an access cannot arise
  (20_memory R64). -/
  | noSuchByte
  /-- The sequencer stands at a slot for which the cycle's DECODE gave no duty, or which is no slot;
  raised by the fetch of the next operation and by CONTROL_CYCLE. Safe: DECODE gives all `N` duties
  (44_decoder_and_cycle R180). -/
  | noSuchSlot
  deriving DecidableEq, Repr

/-- Why the model gives no next state. -/
inductive Refusal where
  /-- An instruction that has no meaning yet; raised by exec alone. Safe. -/
  | notModelled (mnemonic : String)
  /-- `CONFIG_REFUSED`: the configuration is illegal, so there is no machine (00_scope R8,
  60_exceptions R212); raised by the boot and by the step. Safe. -/
  | configRefused
  /-- A frame handed over is not exactly `2N` bytes; raised by the transport's move and by FETCH_FRAME,
  whichever frame of those handed over it is. Safe: no such frame exists (20_memory R65, 60_exceptions
  R213; 93_implementation_defined U2, "refuse"). -/
  | frameLength
  deriving DecidableEq, Repr

/-- A main channel after reset (10_state R20). -/
def MainChan.reset : MainChan := ⟨0, 0, .nonneg⟩

/-- A sub channel after reset (10_state R20). -/
def SubChan.reset (c : Config) : SubChan := ⟨0, .b, c.pwmResolution, c.pwmResolution, .uninit, 0⟩

/-- An environment that has answered nothing and whose answers are all free (log 4, log 5). -/
def Env.reset : Env := ⟨[], [], [], [], 0, 0⟩

/-- The state after reset of a machine with configuration `c` (10_state R20, 70_reset_and_hazards
R232). `V_NOW` and `V_FILT` are unwritten; the value their registers hold is DESIGN CHOICE `V_MIN`,
unsafe, log 3. -/
def State.resetOf (c : Config) : State where
  cfg := c
  phase := .configure
  stage := .vsample
  cycleN := 0
  mains := List.replicate c.numMain MainChan.reset
  subs := List.replicate c.numSub (SubChan.reset c)
  vNow := c.vMin
  vNowWritten := false
  emaState := c.vFiltInit
  vFilt := c.vMin
  vFiltWritten := false
  fRange := false
  powerEn := false
  frame := []
  pending := none
  duty := []
  slewRet := 0
  events := []
  env := Env.reset

/-- The machine right after reset, with the reference configuration (log 1, log 2). -/
def State.reset : State := State.resetOf Config.reference

end Sys2Proof.Machine
end

