-- ==== Sys2Proof/Machine/Ops.lean ====
section
/-! DEFINITION. The named operations over the frame buffer, the channel files, the output ports and the
environment (00_scope R12): the primitives the pseudocode of every operation is written in. The block
has no trap entry and no trap return (60_exceptions R216, R217); its one exceptional event,
`raise F_RANGE`, is in Flags.lean. -/

namespace Sys2Proof.Machine

/-- One operation after another: the second runs on the state the first leaves (00_scope R12). -/
def andThen (o : Host.Outcome State Fault Refusal) (f : State → Host.Outcome State Fault Refusal) :
    Host.Outcome State Fault Refusal :=
  match o with
  | .next s => f s
  | .fault r => .fault r
  | .refused r => .refused r

/-- The frame buffer's byte at `a`; an unlisted address reads 0x00, the reset contents (10_state R36). -/
def memGet : List Host.Cell → Nat → Byte
  | [], _ => 0
  | (k, v) :: rest, a => if k = a then v else memGet rest a

/-- Write one byte, keeping addresses rising and 0x00 unlisted (log 21). -/
def memSet : List Host.Cell → Nat → Byte → List Host.Cell
  | [], a, b => if b = 0 then [] else [(a, b)]
  | (k, v) :: rest, a, b =>
    if a < k then (if b = 0 then (k, v) :: rest else (a, b) :: (k, v) :: rest)
    else if a = k then (if b = 0 then rest else (a, b) :: rest)
    else (k, v) :: memSet rest a b

/-- The memory that holds a list of bytes from address `a` on, and 0x00 everywhere else. -/
def memOfBytes : Nat → List Byte → List Host.Cell
  | _, [] => []
  | a, b :: bs => if b = 0 then memOfBytes (a + 1) bs else (a, b) :: memOfBytes (a + 1) bs

/-- The canonical form of a memory of `size` bytes, addresses from `lo` on: rising, none 0x00, none
outside. -/
def memWfFrom (size : Nat) : Nat → List Host.Cell → Bool
  | _, [] => true
  | lo, (k, v) :: rest => decide (lo ≤ k) && decide (k < size) && !decide (v = 0) && memWfFrom size (k + 1) rest

/-- The canonical form of a frame buffer of `size` bytes (log 21). -/
def memWf (size : Nat) (m : List Host.Cell) : Bool := memWfFrom size 0 m

/-- The size of the frame buffer, `2N` bytes (20_memory R60). -/
def State.frameSize (s : State) : Nat := 2 * s.cfg.numWords

/-- `MemRead(a, 1)` (00_scope R12, 20_memory R60): nothing outside the buffer. -/
def State.memRead (s : State) (a : Nat) : Option Byte :=
  if a < s.frameSize then some (memGet s.frame a) else none

/-- Duty `i` of the frame (20_memory R61, 30_encoding R86). -/
def State.frameDuty (s : State) (i : Nat) : Option Int :=
  match s.memRead (2 * i), s.memRead (2 * i + 1) with
  | some lo, some hi => some (sext16 (wordOfBytes lo hi))
  | _, _ => none

/-- The duties of a list of words of the frame. -/
def State.frameDutiesOf (s : State) : List Nat → Option (List Int)
  | [] => some []
  | i :: is =>
    match s.frameDuty i, s.frameDutiesOf is with
    | some d, some ds => some (d :: ds)
    | _, _ => none

/-- `duty[0..N-1]`, what DECODE computes (44_decoder_and_cycle R180). -/
def State.frameDuties (s : State) : Option (List Int) := s.frameDutiesOf (List.range s.cfg.numWords)

/-- The pending slot holds a frame (20_memory R76). -/
def State.hold (s : State) (f : Frame) : State := { s with pending := some f }

/-- The transport's move: it hands over a complete frame, and the pending slot holds the newest (20_memory
R76). A frame that is not `2N` bytes has no move (20_memory R65, 60_exceptions R213; log 7). -/
def State.transportDeliver (s : State) (f : Frame) : Host.Outcome State Fault Refusal :=
  if f.length = s.frameSize then .next (s.hold f) else .refused .frameLength

/-- The transport's moves for a list of frames, oldest first (20_memory R76). -/
def deliverAll : List Frame → State → Host.Outcome State Fault Refusal
  | [], s => .next s
  | f :: fs, s => andThen (s.transportDeliver f) (deliverAll fs)

/-- The state after an environment answer has been taken from its script. -/
def State.withEnv (s : State) (e : Env) : State := { s with env := e }

/-- `DrawRaw()`: an answer of the ADC, at most `RAW_MAX` (40_voltage_sampler R105; log 6). -/
def State.drawRaw (s : State) : Nat × State :=
  (min (s.env.adc.headD (Config.freeRaw s.env.draws)) s.cfg.rawMax,
   s.withEnv { s.env with adc := s.env.adc.tail, draws := s.env.draws + 1 })

/-- `DrawRawGate()`: an answer of the secondary voltage source (44_decoder_and_cycle R187). -/
def State.drawRawGate (s : State) : Nat × State :=
  (s.env.gateAdc.headD (Config.freeGateRaw s.env.draws),
   s.withEnv { s.env with gateAdc := s.env.gateAdc.tail, draws := s.env.draws + 1 })

/-- The later of two clock values. -/
def laterOf (x y : Instant) : Instant := if x ≤ y then y else x

/-- `DrawNow()`: an answer of the clock, never below the one before it (10_state R44; log 5). -/
def State.drawNow (s : State) : Instant × State :=
  let now := laterOf s.env.lastNow (s.env.clock.headD (Config.freeNow s.env.draws))
  (now, s.withEnv { s.env with clock := s.env.clock.tail, lastNow := now, draws := s.env.draws + 1 })

/-- The frame a free delivery brings: `2N` free bytes (20_memory R65, R76; log 4). -/
def State.freeFrame (s : State) : Frame := (List.range s.frameSize).map (Config.freeByte s.env.draws)

/-- The frames delivered since the last fetch, oldest first: what the script says, or else a free
choice of none or one (20_memory R76; log 7). -/
def State.delivered (s : State) : List Frame :=
  s.env.deliveries.headD (if Config.freeDelivers s.env.draws then [s.freeFrame] else [])

/-- Every frame handed over and not yet fetched, oldest first: the one in the pending slot, and those
delivered since (20_memory R76). -/
def State.handedOver (s : State) : List Frame := s.pending.toList ++ s.delivered

/-- The environment after this fetch point. -/
def State.envAfterFetch (s : State) : Env :=
  { s.env with deliveries := s.env.deliveries.tail, draws := s.env.draws + 1 }

/-- The deliveries up to this fetch point, each by the transport's move: one frame of another length
among them, seen by the fetch or not, and there is no run (20_memory R76, 60_exceptions R213). -/
def State.takeDeliveries (s : State) : Host.Outcome State Fault Refusal :=
  andThen (deliverAll s.handedOver s) fun t => .next (t.withEnv s.envAfterFetch)

/-- `FetchFrame()` (20_memory R76): the pending frame, if any, becomes the frame buffer and the slot is
emptied; otherwise the buffer is kept. -/
def State.fetchPending (s : State) : State :=
  match s.pending with
  | none => s
  | some f => { s with frame := memOfBytes 0 f, pending := none }

/-- A write event reaches the output layer (00_scope R12). -/
def State.emit (s : State) (e : Event) : State := { s with events := s.events ++ [e] }

/-- `MAIN_LEVEL[m] <- lvl ; PinWrite(main_pwm(m), lvl)` (42_main_channel R130 step 3). -/
def State.mainPin (s : State) (m : Nat) (lvl : Int) : State :=
  { s with mains := s.mains.modify m fun c => { c with level := lvl } }.emit (.pinWrite (.main m) lvl)

/-- `MAIN_DIR[m] <- d ; DirWrite(m, d)` (42_main_channel R130 step 3). -/
def State.mainDir (s : State) (m : Nat) (d : Dir) : State :=
  { s with mains := s.mains.modify m fun c => { c with dir := d } }.emit (.dirWrite m d)

/-- `MAIN_PREV[m] <- d` (42_main_channel R130 step 4). -/
def State.setMainPrev (s : State) (m : Nat) (d : Int) : State :=
  { s with mains := s.mains.modify m fun c => { c with prev := d } }

/-- A sub channel with the level of one pin replaced. -/
def SubChan.withLevel (c : SubChan) (x : Side) (lvl : Int) : SubChan :=
  match x with
  | .a => { c with levelA := lvl }
  | .b => { c with levelB := lvl }

/-- `LEVEL_X[k] <- lvl ; PinWrite(pin(k, X), lvl)` (43_sub_channel R151 steps 3, 4; R159). -/
def State.subPin (s : State) (k : Nat) (x : Side) (lvl : Int) : State :=
  { s with subs := s.subs.modify k fun c => c.withLevel x lvl }.emit (.pinWrite (.sub k x) lvl)

/-- `SUB_ACTIVE[k] <- x` (43_sub_channel R151 step 3). -/
def State.setSubActive (s : State) (k : Nat) (x : Side) : State :=
  { s with subs := s.subs.modify k fun c => { c with active := x } }

/-- `SUB_PREV[k] <- d` (43_sub_channel R151 step 5). -/
def State.setSubPrev (s : State) (k : Nat) (d : Int) : State :=
  { s with subs := s.subs.modify k fun c => { c with prev := d } }

/-- `SOL_STATE[k] <- t ; SOL_T0[k] <- now` (43_sub_channel R153). -/
def State.setSolenoid (s : State) (k : Nat) (t : SolState) (now : Instant) : State :=
  { s with subs := s.subs.modify k fun c => { c with sol := t, t0 := now } }

/-- `POWER_EN <- 1 ; PowerEnable()` (44_decoder_and_cycle R188). -/
def State.assertPower (s : State) : State := { s with powerEn := true }.emit .powerEnable

end Sys2Proof.Machine
end

