-- ==== Sys2Proof/Machine/Operands.lean ====
section
/-! DEFINITION. The pure computations on operands: rounding (00_scope R11), the voltage conversion and
the floor (40_voltage_sampler R102, R103), the slew limit (41_slew_limiter R120), the level functions
(42_main_channel R131, 43_sub_channel R150), the direction and the sides (42_main_channel R133,
43_sub_channel R152), the solenoid target and the dwell (43_sub_channel R153). -/

namespace Sys2Proof.Machine

/-- `round(x)`: to nearest, ties away from zero (00_scope R11). -/
def roundAway (x : Rat) : Int := if 0 ≤ x then ⌊x + 1 / 2⌋ else -⌊-x + 1 / 2⌋

/-- `clamp(x, lo, hi)` (00_scope R10). -/
def clamp (x lo hi : Int) : Int := min (max x lo) hi

/-- `V_SCALE = V_REF_MAX / ADC_FULL_SCALE` (00_scope R7, 40_voltage_sampler R103). -/
def vScale (c : Config) : Rat := c.vRefMax / c.adcFullScale

/-- A raw sample in volts (40_voltage_sampler R103). -/
def rawVolts (c : Config) (raw : Nat) : Volts := raw * vScale c

/-- The floor clamp `max(v, V_MIN)` (40_voltage_sampler R102). -/
def floorVolts (c : Config) (v : Volts) : Volts := max v c.vMin

/-- The blend of the filter's state with a sample (40_voltage_sampler R101). -/
def emaBlend (c : Config) (ema v : Volts) : Volts := c.emaAlpha * ema + (1 - c.emaAlpha) * v

/-- `SLEW_LIMIT(req, prev, step)` (41_slew_limiter R120). -/
def slewLimit (req prev step : Int) : Int :=
  if req = prev then prev
  else
    let delta := req - prev
    if step < (delta.natAbs : Int) then prev + delta.sign * step else req

/-- The share of the PWM period that duty `d` asks for at voltage `v`: `|d| * V_MIN / (DUTY_MAX * v)`
(42_main_channel R131, 43_sub_channel R150). -/
def dutyShare (c : Config) (d : Int) (v : Volts) : Rat := (d.natAbs : Rat) * c.vMin / ((c.dutyMax : Rat) * v)

/-- `MainLevel(d, v)` (42_main_channel R131). -/
def mainLevel (c : Config) (d : Int) (v : Volts) : Int :=
  clamp (roundAway ((c.pwmResolution : Rat) * dutyShare c d v)) 0 c.pwmResolution

/-- `SubLevel(d, v)` (43_sub_channel R150). -/
def subLevel (c : Config) (d : Int) (v : Volts) : Int :=
  clamp (roundAway ((c.pwmResolution : Rat) * (1 - dutyShare c d v))) 0 c.pwmResolution

/-- `REST`, the rest level of a sub-channel pin (43_sub_channel R150). -/
def restLevel (c : Config) : Int := c.pwmResolution

/-- The direction of a duty (42_main_channel R130, R133). -/
def dirOf (d : Int) : Dir := if d < 0 then .neg else .nonneg

/-- The electrical level of a direction pin (10_state R25). -/
def dirPinLevel (c : Config) : Dir → Bool
  | .neg => c.dirLevelNeg
  | .nonneg => !c.dirLevelNeg

/-- The pin that a duty selects (43_sub_channel R152). -/
def sideOf (d : Int) : Side := if 0 < d then .a else .b

/-- The reversal test: `sign` is three-valued (43_sub_channel R152). -/
def reverses (prev d : Int) : Bool := decide (d.sign ≠ prev.sign)

/-- The active pin after the hand-over (43_sub_channel R151 step 3, R152). -/
def activeAfter (c : SubChan) (d : Int) : Side := if reverses c.prev d then sideOf d else c.active

/-- The solenoid state a request asks for (43_sub_channel R153). -/
def solTarget (targetOn : Bool) : SolState := if targetOn then .on else .off

/-- `now - SOL_T0[s] < SOLENOID_TIME`, where the gate applies: the request is dropped (43_sub_channel
R153). The difference is the unsigned 64-bit one; with a monotone clock it never wraps (log 16). -/
def dwellDrops (cfg : Config) (c : SubChan) (now : Instant) : Bool :=
  (decide (c.sol ≠ .uninit) || cfg.solFirstGated) && decide ((now - c.t0).toNat < cfg.solenoidTime)

/-- Whether this cycle takes a filtered sample (44_decoder_and_cycle R183). -/
def filterCycle (cfg : Config) (cycleN : Nat) : Bool := decide (cycleN % cfg.filtPeriodK = 0)

/-- Whether a poll of the startup gate passes: a strict comparison (44_decoder_and_cycle R187). -/
def gatePasses (cfg : Config) (g : Nat) : Bool := decide (cfg.vMin < (g : Rat) * cfg.vScaleGate)

end Sys2Proof.Machine
end

