-- ==== Sys2Proof/Machine/Flags.lean ====
section
/-! DEFINITION. The one flag of the block, the sticky `F_RANGE` (10_state R34, R37), its computation
(60_exceptions R211) and the spec's fault enumeration (60_exceptions R215). -/

namespace Sys2Proof.Machine

/-- `|d| > DUTY_MAX` (60_exceptions R211, 30_encoding R87). -/
def outOfRange (c : Config) (d : Int) : Bool := decide (c.dutyMax < (d.natAbs : Int))

/-- `if |d| > DUTY_MAX: raise F_RANGE`: sticky, and execution continues (42_main_channel R130,
43_sub_channel R151, 60_exceptions R211). -/
def State.checkRange (s : State) (d : Int) : State := { s with fRange := s.fRange || outOfRange s.cfg d }

/-- The spec's fault enumeration (60_exceptions R215). -/
inductive FaultCode where
  | fRange
  | configRefused
  deriving DecidableEq, Repr

/-- The codes of the fault enumeration (60_exceptions R215). -/
def faultNumber : FaultCode → Nat
  | .fRange => 1
  | .configRefused => 2

/-- Which fault of the enumeration marks a state: an illegal configuration (60_exceptions R212) or the
sticky bit (60_exceptions R211). -/
def State.faultCode (s : State) : Option FaultCode :=
  if !s.cfg.legal then some .configRefused else if s.fRange then some .fRange else none

end Sys2Proof.Machine
end

