-- ==== Sys2Proof/Machine/MainChannel.lean ====
section
/-! DEFINITION. The main channel: MAIN_DRIVE (42_main_channel). -/

namespace Sys2Proof.Machine

/-- Steps 2 to 4 of MAIN_DRIVE, the writes for a limited duty that differs from the last one: the
level, then the direction, then `MAIN_PREV` (42_main_channel R130, R132). -/
def State.applyMain (s : State) (m : Nat) (d1 : Int) : State :=
  ((s.mainPin m (mainLevel s.cfg d1 s.vNow)).mainDir m (dirOf d1)).setMainPrev m d1

/-- `MAIN_DRIVE(m, d)` (42_main_channel R130). -/
def execMainDrive (m : Nat) (d : Int) (s : State) : Host.Outcome State Fault Refusal :=
  match s.mains[m]? with
  | none => .fault .noSuchChannel
  | some c =>
    let d1 := slewLimit d c.prev s.cfg.dutyDiffMax
    if d1 = c.prev then .next (s.checkRange d) else .next ((s.checkRange d).applyMain m d1)

end Sys2Proof.Machine
end

