-- ==== Sys2Proof/Machine/Slew.lean ====
section
/-! DEFINITION. The slew-rate limiter as an operation of its own: SLEW_LIMIT (41_slew_limiter R120).
MAIN_DRIVE and SUB_MOTOR call the function `slewLimit` of Operands.lean. -/

namespace Sys2Proof.Machine

/-- `SLEW_LIMIT(req, prev, step)`: a pure function; it writes none of the spec's state. What it returns
is left in the model's own `slewRet` (41_slew_limiter R120; log 9). -/
def execSlewLimit (req prev step : Int) (s : State) : Host.Outcome State Fault Refusal :=
  .next { s with slewRet := slewLimit req prev step }

end Sys2Proof.Machine
end

