-- ==== Sys2Proof/Machine/SubChannel.lean ====
section
/-! DEFINITION. The sub channel: SUB_MOTOR, SOLENOID_SWITCH, SUB_SOL_ON, SUB_SOL_OFF, SUB_DISPATCH
(43_sub_channel). -/

namespace Sys2Proof.Machine

/-- Step 3 of SUB_MOTOR: on a reversal the active pin goes to rest, and then the new active pin is
selected (43_sub_channel R151, R152). -/
def State.handOver (s : State) (k : Nat) (c : SubChan) (d1 : Int) : State :=
  if reverses c.prev d1 then (s.subPin k c.active (restLevel s.cfg)).setSubActive k (sideOf d1) else s

/-- Steps 2 to 5 of SUB_MOTOR for a limited duty that differs from the last one (43_sub_channel R151). -/
def State.applySub (s : State) (k : Nat) (c : SubChan) (d1 : Int) : State :=
  ((s.handOver k c d1).subPin k (activeAfter c d1) (subLevel s.cfg d1 s.vNow)).setSubPrev k d1

/-- `SUB_MOTOR(k, d)` (43_sub_channel R151). -/
def execSubMotor (k : Nat) (d : Int) (s : State) : Host.Outcome State Fault Refusal :=
  match s.subs[k]? with
  | none => .fault .noSuchChannel
  | some c =>
    let d1 := slewLimit d c.prev s.cfg.dutyDiffMax
    if d1 = c.prev then .next (s.checkRange d) else .next ((s.checkRange d).applySub k c d1)

/-- `write Pattern(target)`: the pin that goes to rest first (43_sub_channel R159). -/
def State.writePattern (s : State) (k : Nat) (targetOn : Bool) : State :=
  if targetOn then (s.subPin k .a (restLevel s.cfg)).subPin k .b 0
  else (s.subPin k .b (restLevel s.cfg)).subPin k .a 0

/-- `write BothRest` (43_sub_channel R159). -/
def State.writeBothRest (s : State) (k : Nat) : State :=
  (s.subPin k .a (restLevel s.cfg)).subPin k .b (restLevel s.cfg)

/-- The writes of a same-state request (43_sub_channel R153, 90_conflicts C6). -/
def State.refreshSolenoid (s : State) (k : Nat) (targetOn : Bool) : State :=
  match s.cfg.solRefresh with
  | .statePattern => s.writePattern k targetOn
  | .bothRest => s.writeBothRest k

/-- SOLENOID_SWITCH on channel `k`, whose registers are `c`, at clock value `now` (43_sub_channel
R153): dropped within the dwell, a refresh in the same state, or else the accepted transition. -/
def State.solenoidAt (s : State) (k : Nat) (c : SubChan) (targetOn : Bool) (now : Instant) : State :=
  if dwellDrops s.cfg c now then s
  else if c.sol = solTarget targetOn then s.refreshSolenoid k targetOn
  else (s.writePattern k targetOn).setSolenoid k (solTarget targetOn) now

/-- `SOLENOID_SWITCH(k, targetOn)`, shared by its two encoded forms: one clock draw, used for the dwell
test and for `SOL_T0` (43_sub_channel R153). -/
def solenoidSwitch (k : Nat) (targetOn : Bool) (s : State) : Host.Outcome State Fault Refusal :=
  match s.subs[k]? with
  | none => .fault .noSuchChannel
  | some c =>
    let (now, s) := s.drawNow
    .next (s.solenoidAt k c targetOn now)

/-- `SOLENOID_SWITCH(s, targetOn)` (43_sub_channel R153). -/
def execSolenoidSwitch (k : Nat) (targetOn : Bool) (s : State) : Host.Outcome State Fault Refusal :=
  solenoidSwitch k targetOn s

/-- `SUB_SOL_ON(s)` (43_sub_channel R154). -/
def execSubSolOn (k : Nat) (s : State) : Host.Outcome State Fault Refusal := solenoidSwitch k true s

/-- `SUB_SOL_OFF(s)` (43_sub_channel R155). -/
def execSubSolOff (k : Nat) (s : State) : Host.Outcome State Fault Refusal := solenoidSwitch k false s

/-- `SUB_DISPATCH(s, d)`: exactly one of the three, by the sentinel test (43_sub_channel R156,
30_encoding R84). -/
def execSubDispatch (k : Nat) (d : Int) (s : State) : Host.Outcome State Fault Refusal :=
  if isSentinel s.cfg d ∧ 0 < d then execSubSolOn k s
  else if isSentinel s.cfg d then execSubSolOff k s
  else execSubMotor k d s

end Sys2Proof.Machine
end

