-- ==== Sys2Proof/Machine/Voltage.lean ====
section
/-! DEFINITION. The voltage sampler with filter: VSAMPLE and VSAMPLE_FILT (40_voltage_sampler). -/

namespace Sys2Proof.Machine

/-- `V_NOW <- v`. -/
def State.setVNow (s : State) (v : Volts) : State := { s with vNow := v, vNowWritten := true }

/-- `EMA_STATE <- e ; V_FILT <- r`. -/
def State.setFilter (s : State) (e r : Volts) : State := { s with emaState := e, vFilt := r, vFiltWritten := true }

/-- `VSAMPLE` (40_voltage_sampler R100). -/
def execVsample (s : State) : Host.Outcome State Fault Refusal :=
  let (raw, s) := s.drawRaw
  .next (s.setVNow (floorVolts s.cfg (rawVolts s.cfg raw)))

/-- `VSAMPLE_FILT` (40_voltage_sampler R101). -/
def execVsampleFilt (s : State) : Host.Outcome State Fault Refusal :=
  let (raw, s) := s.drawRaw
  let e := emaBlend s.cfg s.emaState (rawVolts s.cfg raw)
  let r := floorVolts s.cfg e
  .next (s.setFilter (if s.cfg.emaClampState then r else e) r)

end Sys2Proof.Machine
end

