-- ==== Sys2Proof/Machine/Sequencer.lean ====
section
/-! DEFINITION. The frame decoder, the control cycle and the startup steps (44_decoder_and_cycle), and
the boot of a configuration (70_reset_and_hazards R233, 60_exceptions R212). -/

namespace Sys2Proof.Machine

/-- `POWER_ENABLE` (44_decoder_and_cycle R188). -/
def execPowerEnable (s : State) : Host.Outcome State Fault Refusal := .next s.assertPower

/-- The write events of CONFIGURE, in its order (44_decoder_and_cycle R186). -/
def configureEvents (c : Config) : List Event :=
  (List.range c.numMain).flatMap (fun m => [.pinWrite (.main m) 0, .dirWrite m .nonneg])
    ++ (List.range c.numSub).flatMap
        (fun k => [.pinWrite (.sub k .a) (restLevel c), .pinWrite (.sub k .b) (restLevel c)])

/-- Every output at its reset value (44_decoder_and_cycle R186). -/
def State.configureOutputs (s : State) : State :=
  { s with
    mains := s.mains.map fun c => { c with level := 0, dir := .nonneg }
    subs := s.subs.map fun c => { c with levelA := restLevel s.cfg, levelB := restLevel s.cfg }
    events := s.events ++ configureEvents s.cfg }

/-- `PHASE <- p`. -/
def State.setPhase (s : State) (p : Phase) : State := { s with phase := p }

/-- `CONFIGURE` (44_decoder_and_cycle R186). -/
def execConfigure (s : State) : Host.Outcome State Fault Refusal :=
  if s.cfg.gateEn then .next (s.configureOutputs.setPhase .gate)
  else execPowerEnable (s.configureOutputs.setPhase .loop)

/-- `STARTUP_GATE`, one poll (44_decoder_and_cycle R187). -/
def execStartupGate (s : State) : Host.Outcome State Fault Refusal :=
  let (g, s) := s.drawRawGate
  if gatePasses s.cfg g then andThen (execPowerEnable s) fun s => .next (s.setPhase .loop)
  else .next s

/-- `FETCH_FRAME` (44_decoder_and_cycle R181): what the transport delivered up to this point is
pending, and the pending frame is taken (20_memory R76). -/
def execFetchFrame (s : State) : Host.Outcome State Fault Refusal :=
  andThen s.takeDeliveries fun t => .next t.fetchPending

/-- `DECODE` (44_decoder_and_cycle R180). It writes none of the spec's state: the duties are the
cycle's transient, held in the model's own `duty` (log 9). -/
def execDecode (s : State) : Host.Outcome State Fault Refusal :=
  match s.frameDuties with
  | some ds => .next { s with duty := ds }
  | none => .fault .noSuchByte

/-- `SLEEP`: no state change (44_decoder_and_cycle R185; log 17). -/
def execSleep (s : State) : Host.Outcome State Fault Refusal := .next s

/-- Stage 4: `MAIN_DRIVE(m, duty[m])` for each of a list of main channels (44_decoder_and_cycle R182). -/
def driveMains : List Nat → State → Host.Outcome State Fault Refusal
  | [], s => .next s
  | m :: ms, s =>
    match s.duty[m]? with
    | none => .fault .noSuchSlot
    | some d => andThen (execMainDrive m d s) (driveMains ms)

/-- Stage 5: `SUB_DISPATCH(k, duty[M+k])` for each of a list of sub channels (44_decoder_and_cycle
R182). -/
def dispatchSubs : List Nat → State → Host.Outcome State Fault Refusal
  | [], s => .next s
  | k :: ks, s =>
    match s.duty[s.cfg.numMain + k]? with
    | none => .fault .noSuchSlot
    | some d => andThen (execSubDispatch k d s) (dispatchSubs ks)

/-- Stage 1b: a filtered sample in the filter cycles (44_decoder_and_cycle R182, R183). -/
def filterStage (s : State) : Host.Outcome State Fault Refusal :=
  if filterCycle s.cfg s.cycleN then execVsampleFilt s else .next s

/-- `CYCLE_N <- CYCLE_N + 1`. -/
def State.countCycle (s : State) : State := { s with cycleN := s.cycleN + 1 }

/-- `CONTROL_CYCLE`: stages 1a to 6 in order, then the count (44_decoder_and_cycle R182). -/
def execControlCycle (s : State) : Host.Outcome State Fault Refusal :=
  andThen (execVsample s) fun s =>
  andThen (filterStage s) fun s =>
  andThen (execFetchFrame s) fun s =>
  andThen (execDecode s) fun s =>
  andThen (driveMains (List.range s.cfg.numMain) s) fun s =>
  andThen (dispatchSubs (List.range s.cfg.numSub) s) fun s =>
  andThen (execSleep s) fun s => .next s.countCycle

/-- The stage of slot `i`, or SLEEP after the last slot (44_decoder_and_cycle R182, R184). -/
def slotOrSleep (c : Config) (i : Nat) : Stage := if i < c.numWords then .slot i else .sleep

/-- The stage that follows a stage of the cycle (44_decoder_and_cycle R182). -/
def nextStage (c : Config) (cycleN : Nat) : Stage → Stage
  | .vsample => if filterCycle c cycleN then .vsampleFilt else .fetch
  | .vsampleFilt => .fetch
  | .fetch => .decode
  | .decode => slotOrSleep c 0
  | .slot i => slotOrSleep c (i + 1)
  | .sleep => .vsample

/-- The channel operation of slot `i`: the one that its decoded duty selects (30_encoding R82 to R84,
44_decoder_and_cycle R182 stages 4 and 5). -/
def slotOperation (s : State) (i : Nat) : Except Fault Instr :=
  match slotAt s.cfg i, s.duty[i]? with
  | some slot, some d => .ok (select s.cfg slot d)
  | _, _ => .error .noSuchSlot

/-- The operation the sequencer issues in a state: CONFIGURE, then the polls of the gate, then the
stages of the control cycle (70_reset_and_hazards R230, 44_decoder_and_cycle R182). -/
def issued (s : State) : Except Fault Instr :=
  match s.phase with
  | .configure => .ok .configure
  | .gate => .ok .startupGate
  | .loop =>
    match s.stage with
    | .vsample => .ok .vsample
    | .vsampleFilt => .ok .vsampleFilt
    | .fetch => .ok .fetchFrame
    | .decode => .ok .decode
    | .slot i => slotOperation s i
    | .sleep => .ok .sleep

/-- What the sequencer does after the operation it issued in state `s` left state `t`: it moves to the
next stage, and after SLEEP it counts the cycle (44_decoder_and_cycle R182). Outside the loop the
operations themselves move `PHASE` (44_decoder_and_cycle R186, R187). -/
def advance (s t : State) : State :=
  match s.phase with
  | .configure => t
  | .gate => t
  | .loop =>
    match s.stage with
    | .sleep => { t.countCycle with stage := .vsample }
    | st => { t with stage := nextStage s.cfg s.cycleN st }

/-- Reset with a configuration: an illegal one gives no machine (00_scope R8, 60_exceptions R212,
70_reset_and_hazards R233). -/
def boot (c : Config) : Host.Outcome State Fault Refusal :=
  if c.legal then .next (State.resetOf c) else .refused .configRefused

end Sys2Proof.Machine
end

