-- ==== Sys2Proof/Machine/Dispatch.lean ====
section
/-! DEFINITION. The meaning of each operation, one arm per constructor of Instr. -/

namespace Sys2Proof.Machine

def exec (i : Instr) (s : State) : Host.Outcome State Fault Refusal :=
  match i with
  | .subSolOn k => Sys2Proof.Machine.execSubSolOn k s
  | .subSolOff k => Sys2Proof.Machine.execSubSolOff k s
  | .subMotor k d => Sys2Proof.Machine.execSubMotor k d s
  | .mainDrive m d => Sys2Proof.Machine.execMainDrive m d s
  | .configure => Sys2Proof.Machine.execConfigure s
  | .startupGate => Sys2Proof.Machine.execStartupGate s
  | .powerEnable => Sys2Proof.Machine.execPowerEnable s
  | .vsample => Sys2Proof.Machine.execVsample s
  | .vsampleFilt => Sys2Proof.Machine.execVsampleFilt s
  | .fetchFrame => Sys2Proof.Machine.execFetchFrame s
  | .decode => Sys2Proof.Machine.execDecode s
  | .slewLimit req prev step => Sys2Proof.Machine.execSlewLimit req prev step s
  | .solenoidSwitch k targetOn => Sys2Proof.Machine.execSolenoidSwitch k targetOn s
  | .subDispatch k d => Sys2Proof.Machine.execSubDispatch k d s
  | .sleep => Sys2Proof.Machine.execSleep s
  | .controlCycle => Sys2Proof.Machine.execControlCycle s

end Sys2Proof.Machine
end

