-- ==== Sys2Proof/Machine/Step.lean ====
section
/-! DEFINITION. One step of the block: the sequencer issues one operation, it runs, and the sequencer
moves on (00_scope R6, 70_reset_and_hazards R230). -/

namespace Sys2Proof.Machine

/-- One model step: one named operation (00_scope R6). An illegal configuration is refused, not run
(00_scope R8). -/
def step (s : State) : Host.Outcome State Fault Refusal :=
  if s.cfg.legal then
    match issued s with
    | .ok i => andThen (exec i s) fun t => .next (advance s t)
    | .error f => .fault f
  else .refused .configRefused

/-- `s` with a table word placed where the next step takes its operation: the word stands in the frame
buffer at the first sub slot, DECODE's duties are those of that frame, and the sequencer stands at that
slot of the loop (log 13, log 14). A machine without sub channels has it in the first slot. -/
def State.withFetchWord (s : State) (nbits w : Nat) : State :=
  let i := if s.cfg.numSub = 0 then 0 else s.cfg.numMain
  let word : Word16 := BitVec.ofNat 16 (w % 2 ^ nbits)
  let placed : State :=
    { s with
      phase := .loop
      stage := .slot i
      frame := memSet (memSet s.frame (2 * i) (lowByte word)) (2 * i + 1) (highByte word) }
  { placed with duty := placed.frameDuties.getD [] }

end Sys2Proof.Machine
end

