-- ==== Sys2Proof/Machine/Assembler.lean ====
section
/-! DEFINITION. The text notation of command programs as syntax and its assembler: pseudo-instructions
(30_encoding R92), cycle lines (30_encoding R91), and the environment script a program denotes. -/

namespace Sys2Proof.Machine

/-- One item of a cycle line: a raw word `W slot hex`, or a pseudo-instruction (30_encoding R91, R92). -/
inductive Pseudo where
  | word (slot : Nat) (w : Word16)
  | drive (m : Nat) (d : Int)
  | motor (s : Nat) (d : Int)
  | solOn (s : Nat)
  | solOff (s : Nat)
  | stop (m : Nat)
  | brake (s : Nat)
  deriving DecidableEq, Repr

/-- `DRIVE m, d` (30_encoding R92). -/
def expandDrive (c : Config) (m : Nat) (d : Int) : Option (Nat × Word16) :=
  if m < c.numMain ∧ inWordRange d then some (m, enc16 d) else none

/-- `MOTOR s, d`, refused where the word would spell a solenoid request (30_encoding R92). -/
def expandMotor (c : Config) (s : Nat) (d : Int) : Option (Nat × Word16) :=
  if s < c.numSub ∧ inWordRange d ∧ ¬ isSentinel c d then some (c.numMain + s, enc16 d) else none

/-- The slot and the word of an item, or none where the assembler refuses it (30_encoding R92). -/
def expand (c : Config) : Pseudo → Option (Nat × Word16)
  | .word i w => if i < c.numWords then some (i, w) else none
  | .drive m d => expandDrive c m d
  | .motor s d => expandMotor c s d
  | .solOn s => if s < c.numSub ∧ c.dutyMax + 1 ≤ 32767 then some (c.numMain + s, enc16 (c.dutyMax + 1)) else none
  | .solOff s => if s < c.numSub then some (c.numMain + s, enc16 (-(c.dutyMax + 1))) else none
  | .stop m => expandDrive c m 0
  | .brake s => expandMotor c s 0

/-- The words of a frame after a list of items; of two items for one slot the later wins (log 20). -/
def placeItems (c : Config) : List Pseudo → List Word16 → Option (List Word16)
  | [], ws => some ws
  | p :: ps, ws =>
    match expand c p with
    | some (i, w) => placeItems c ps (ws.set i w)
    | none => none

/-- The frame of an item list: a slot that no item names holds 0x0000 (30_encoding R91). -/
def assembleFrame (c : Config) (items : List Pseudo) : Option Frame :=
  (placeItems c items (List.replicate c.numWords 0)).map fun ws => ws.flatMap bytesOf

/-- A cycle line (30_encoding R91); `items = none` is the item list `-`. -/
structure CycleLine where
  t : Option Instant
  raw : Nat
  rawf : Option Nat
  gate : Option Nat
  items : Option (List Pseudo)
  deriving DecidableEq, Repr

/-- Word `i` of a frame (20_memory R61). -/
def frameWord (f : Frame) (i : Nat) : Word16 := wordOfBytes (f.getD (2 * i) 0) (f.getD (2 * i + 1) 0)

/-- How many clock draws the solenoid words of a frame make in one cycle (43_sub_channel R153). -/
def clockDraws (c : Config) (f : Frame) : Nat :=
  ((List.range c.numSub).filter fun k => decide (isSentinel c (sext16 (frameWord f (c.numMain + k))))).length

/-- The script with one more cycle's answers, for the frame `f` that is in force in that cycle and the
frames delivered before its fetch (30_encoding R91). R91 gives `gate=` no meaning: that it is one more
`DrawRawGate` answer, in line order and whatever the phase, is the model's choice (DESIGN CHOICE,
log 20). A line without `t=` whose frame draws the clock is refused (log 20). -/
def scriptCycle (c : Config) (cycleN : Nat) (line : CycleLine) (f : Frame) (fresh : List Frame) (e : Env) : Option Env :=
  let adc := e.adc ++ line.raw :: (if cycleN % c.filtPeriodK = 0 then [line.rawf.getD line.raw] else [])
  let gateAdc := e.gateAdc ++ line.gate.toList
  let deliveries := e.deliveries ++ [fresh]
  match line.t, clockDraws c f with
  | _, 0 => some { e with adc := adc, gateAdc := gateAdc, deliveries := deliveries }
  | some t, n => some { e with adc := adc, gateAdc := gateAdc, deliveries := deliveries, clock := e.clock ++ List.replicate n t }
  | none, _ => none

/-- The script of a program that starts in cycle `cycleN` with frame `f` in the buffer
(30_encoding R91). -/
def scriptProgram (c : Config) : Nat → Frame → List CycleLine → Env → Option Env
  | _, _, [], e => some e
  | n, f, line :: lines, e =>
    match line.items with
    | none =>
      match scriptCycle c n line f [] e with
      | some e' => scriptProgram c (n + 1) f lines e'
      | none => none
    | some items =>
      match assembleFrame c items with
      | none => none
      | some f' =>
        match scriptCycle c n line f' [f'] e with
        | some e' => scriptProgram c (n + 1) f' lines e'
        | none => none

/-- The bytes of the frame buffer in order (20_memory R60). -/
def State.frameBytes (s : State) : Frame := (List.range s.frameSize).map (memGet s.frame)

/-- A state whose environment answers as a program says (30_encoding R91). -/
def State.loadProgram (s : State) (lines : List CycleLine) : Option State :=
  (scriptProgram s.cfg s.cycleN s.frameBytes lines s.env).map s.withEnv

end Sys2Proof.Machine
end

