-- ==== Sys2Proof/Safety.lean ====
section
/-! DEFINITION. What the claims speak of: safe states (60_exceptions R211), the invariant of a machine
that was booted from a legal configuration, the transport's duty (20_memory R65, R66), and the pins as
the output layer sees them (10_state R42, 43_sub_channel R157). -/

namespace Sys2Proof.Machine

/-- A state is faulted when `F_RANGE` is set; a claim takes the contrary as its premise
(60_exceptions R211). -/
def State.unfaulted (s : State) : Prop := s.fRange = false

/-- The registers of a main channel: ranges (10_state R23, R24) and the direction (42_main_channel
R133). -/
structure MainChan.Ok (cfg : Config) (c : MainChan) : Prop where
  prevFits : inWordRange c.prev
  levelLow : 0 ≤ c.level
  levelHigh : c.level ≤ cfg.pwmResolution
  dirFollows : c.dir = dirOf c.prev

/-- The registers of a sub channel: ranges (10_state R26, R28), the active side (10_state R27), and a
transition time that the clock has reached (10_state R30, R44). -/
structure SubChan.Ok (cfg : Config) (lastNow : Instant) (c : SubChan) : Prop where
  prevFits : inWordRange c.prev
  aLow : 0 ≤ c.levelA
  aHigh : c.levelA ≤ cfg.pwmResolution
  bLow : 0 ≤ c.levelB
  bHigh : c.levelB ≤ cfg.pwmResolution
  activeFollows : c.active = sideOf c.prev
  t0Past : c.t0 ≤ lastNow
  t0Fresh : c.sol = .uninit → c.t0 = 0

/-- The invariant of the block: a legal configuration (00_scope R8), channel files of the configured
sizes with registers in range, a canonical frame buffer, a floored voltage (10_state R31), duties that
are the frame's while the channels are served (44_decoder_and_cycle R182), and a power stage that is on
exactly in the loop (70_reset_and_hazards R230). -/
structure State.Inv (s : State) : Prop where
  cfgLegal : s.cfg.legal = true
  mainFile : s.mains.length = s.cfg.numMain
  subFile : s.subs.length = s.cfg.numSub
  mainsOk : ∀ c ∈ s.mains, c.Ok s.cfg
  subsOk : ∀ c ∈ s.subs, c.Ok s.cfg s.env.lastNow
  frameOk : memWf s.frameSize s.frame = true
  vNowFloor : s.cfg.vMin ≤ s.vNow
  vFiltFloor : s.cfg.vMin ≤ s.vFilt
  sampled : s.stage ≠ .vsample → s.vNowWritten = true
  slotInFrame : ∀ i, s.stage = .slot i → i < s.cfg.numWords
  dutiesDecoded : ∀ i, s.stage = .slot i → s.frameDuties = some s.duty
  powerInLoop : s.powerEn = decide (s.phase = .loop)
  gatePresent : s.phase = .gate → s.cfg.gateEn = true
  startStage : s.phase ≠ .loop → s.stage = .vsample
  startDuties : s.phase = .configure → ∀ c ∈ s.mains, c.prev = 0

/-- The transport's duty: every frame it has handed over or will hand over is `2N` bytes long
(20_memory R65). -/
def State.transportOk (s : State) : Prop :=
  (∀ f, s.pending = some f → f.length = s.frameSize) ∧ ∀ fs ∈ s.env.deliveries, ∀ f ∈ fs, f.length = s.frameSize

/-- The level a main channel's pin shows the outside after a list of write events. -/
def pinOfMain (m : Nat) : Int → List Event → Int
  | l, [] => l
  | l, .pinWrite (.main m') l' :: es => pinOfMain m (if m' = m then l' else l) es
  | l, .pinWrite (.sub _ _) _ :: es => pinOfMain m l es
  | l, .dirWrite _ _ :: es => pinOfMain m l es
  | l, .powerEnable :: es => pinOfMain m l es

/-- The levels that pins A and B of a sub channel show after a list of write events. -/
def pinsOfSub (k : Nat) : Int × Int → List Event → Int × Int
  | p, [] => p
  | p, .pinWrite (.sub k' .a) l :: es => pinsOfSub k (if k' = k then (l, p.2) else p) es
  | p, .pinWrite (.sub k' .b) l :: es => pinsOfSub k (if k' = k then (p.1, l) else p) es
  | p, .pinWrite (.main _) _ :: es => pinsOfSub k p es
  | p, .dirWrite _ _ :: es => pinsOfSub k p es
  | p, .powerEnable :: es => pinsOfSub k p es

/-- The direction that a main channel's direction output shows after a list of write events. -/
def dirOfMain (m : Nat) : Dir → List Event → Dir
  | d, [] => d
  | d, .dirWrite m' d' :: es => dirOfMain m (if m' = m then d' else d) es
  | d, .pinWrite _ _ :: es => dirOfMain m d es
  | d, .powerEnable :: es => dirOfMain m d es

/-- At most one of two pin levels is off the rest level (10_state R42). -/
def oneAtRest (cfg : Config) (p : Int × Int) : Prop := p.1 = restLevel cfg ∨ p.2 = restLevel cfg

/-- The shape a motor-only sub channel keeps: the inactive pin is at rest (43_sub_channel R157). -/
def SubChan.inactiveAtRest (cfg : Config) (c : SubChan) : Prop :=
  match c.active with
  | .a => c.levelB = restLevel cfg
  | .b => c.levelA = restLevel cfg

/-- An operation that, issued by the sequencer, requests a solenoid state of channel `k` (the sequencer
issues no CONTROL_CYCLE as one operation: it issues its stages, log 8). -/
def requestsSolenoid (cfg : Config) (k : Nat) : Instr → Prop
  | .subSolOn k' => k' = k
  | .subSolOff k' => k' = k
  | .subMotor _ _ => False
  | .mainDrive _ _ => False
  | .configure => False
  | .startupGate => False
  | .powerEnable => False
  | .vsample => False
  | .vsampleFilt => False
  | .fetchFrame => False
  | .decode => False
  | .slewLimit _ _ _ => False
  | .solenoidSwitch k' _ => k' = k
  | .subDispatch k' d => k' = k ∧ isSentinel cfg d
  | .sleep => False
  | .controlCycle => False

/-- An operation on main channel `m` (42_main_channel R130). -/
def onMainChannel (m : Nat) (i : Instr) : Prop := ∃ d, i = .mainDrive m d

/-- An operation on sub channel `k` (43_sub_channel R151 to R156). -/
def onSubChannel (k : Nat) (i : Instr) : Prop :=
  i = .subSolOn k ∨ i = .subSolOff k ∨ (∃ d, i = .subMotor k d) ∨ (∃ on, i = .solenoidSwitch k on)
    ∨ ∃ d, i = .subDispatch k d

/-- Operations on two channels that are not the same one (10_state R40). -/
def differentChannels (i j : Instr) : Prop :=
  (∃ m n, onMainChannel m i ∧ onMainChannel n j ∧ m ≠ n) ∨ (∃ m k, onMainChannel m i ∧ onSubChannel k j)
    ∨ (∃ k m, onSubChannel k i ∧ onMainChannel m j) ∨ ∃ k l, onSubChannel k i ∧ onSubChannel l j ∧ k ≠ l

/-- A motor operation: one that draws no clock answer (42_main_channel R130, 43_sub_channel R151, R156). -/
def isMotor (cfg : Config) (i : Instr) : Prop :=
  (∃ m, onMainChannel m i) ∨ (∃ k d, i = .subMotor k d) ∨ ∃ k d, i = .subDispatch k d ∧ ¬ isSentinel cfg d

/-- Two states that differ at most in the filter's registers `EMA_STATE` and `V_FILT` (10_state R32,
R33). -/
def sameButFilter (s t : State) : Prop :=
  t = { s with emaState := t.emaState, vFilt := t.vFilt, vFiltWritten := t.vFiltWritten }

/-- Two states that differ at most in `F_RANGE`. -/
def sameButRange (s t : State) : Prop := t = { s with fRange := t.fRange }

/-- Two states that differ at most in the write events issued so far. -/
def sameButEvents (s t : State) : Prop := t = { s with events := t.events }

/-- Two outcomes agree up to a relation between their next states. -/
def outcomesAgree (R : State → State → Prop) : Host.Outcome State Fault Refusal → Host.Outcome State Fault Refusal → Prop
  | .next s, .next t => R s t
  | .fault f, .fault g => f = g
  | .refused f, .refused g => f = g
  | .next _, .fault _ => False
  | .next _, .refused _ => False
  | .fault _, .next _ => False
  | .fault _, .refused _ => False
  | .refused _, .next _ => False
  | .refused _, .fault _ => False

/-- The same operation issued `n` times in a row (70_reset_and_hazards R239: a held duty). -/
def repeatExec (i : Instr) : Nat → State → Host.Outcome State Fault Refusal
  | 0, s => .next s
  | n + 1, s => andThen (exec i s) (repeatExec i n)

/-- `n` steps in a row, stopping at the first fault or refusal. -/
def repeatStep : Nat → State → Host.Outcome State Fault Refusal
  | 0, s => .next s
  | n + 1, s => andThen (step s) (repeatStep n)

/-- The clock answer that the next draw gives (10_state R44). -/
def State.nextNow (s : State) : Instant := s.drawNow.1

/-- The raw sample that the next draw gives (40_voltage_sampler R105). -/
def State.nextRaw (s : State) : Nat := s.drawRaw.1

/-- The frame that the next FETCH_FRAME takes, if any (20_memory R76). -/
def State.newestFrame (s : State) : Option Frame := s.handedOver.getLast?

end Sys2Proof.Machine
end

