-- ==== Sys2Proof/Certificates/Slice0/Obligations.lean ====
section
/-! DEFINITION. The statements for the provers: what the rules of spec/ say of the model. -/

open Sys2Proof Sys2Proof.Machine

-- ==== Encoding ====

/-- Decoding the bytes that spell a well-formed instruction, at its slot, gives the instruction and the
remaining bytes (30_encoding R83 to R86). -/
def Obligations.DecodeOfEncodeIsIdentity : Prop :=
  ∀ (c : Config) (i : Instr) (bs rest : List Byte) (k : Nat), c.legal = true → i.wf c = true →
    encode c i = some bs → slotIndex c i = some k → decode c k (bs ++ rest) = .ok (i, rest)

/-- Every 16-bit pattern in every slot of a frame decodes to one well-formed instruction, whose encoding
is that pattern again (30_encoding R87, R88). -/
def Obligations.EncodeOfDecodeGivesTheWordBack : Prop :=
  ∀ (c : Config) (k : Nat) (lo hi : Byte) (rest : List Byte), c.legal = true → k < c.numWords →
    ∃ i, decode c k (lo :: hi :: rest) = .ok (i, rest) ∧ i.wf c = true ∧ slotIndex c i = some k
      ∧ encode c i = some [lo, hi]

/-- Words written out from the spec's encoding decode to the operations they stand for, under the
reference configuration (30_encoding R83, R84, R85; 95_test_vectors V-DEC, V-RT). -/
def Obligations.WrittenOutWordsDecode : Prop :=
  decode Config.reference 2 [0xFF, 0x7F] = .ok (.subSolOn 0, [])
    ∧ decode Config.reference 3 [0x01, 0x80] = .ok (.subSolOff 1, [])
    ∧ decode Config.reference 2 [0x00, 0x80] = .ok (.subMotor 0 (-32768), [])
    ∧ decode Config.reference 3 [0xFE, 0x7F] = .ok (.subMotor 1 32766, [])
    ∧ decode Config.reference 0 [0x88, 0x13] = .ok (.mainDrive 0 5000, [])
    ∧ decode Config.reference 1 [0x01, 0x80] = .ok (.mainDrive 1 (-32767), [])

/-- Every main-slot word selects MAIN_DRIVE with its signed duty; a main slot has no sentinel; the
operation raises `F_RANGE` exactly on a duty outside `[-DUTY_MAX, DUTY_MAX]` (30_encoding R83). -/
def Obligations.MainSlotWordsSelectMainDrive : Prop :=
  ∀ (c : Config) (m : Nat) (lo hi : Byte), m < c.numMain →
    decode c m [lo, hi] = .ok (.mainDrive m (hi ++ lo).toInt, [])
      ∧ ∀ s t : State, s.cfg = c → exec (.mainDrive m (hi ++ lo).toInt) s = .next t →
          t.fRange = (s.fRange || decide (c.dutyMax < ((hi ++ lo).toInt.natAbs : Int)))

/-- The sub-slot decoding: the two sentinels by magnitude and sign, every other word SUB_MOTOR
(30_encoding R84). -/
def Obligations.SubSlotWordsSelectByMagnitude : Prop :=
  ∀ (c : Config) (k : Nat) (lo hi : Byte), k < c.numSub →
    decode c (c.numMain + k) [lo, hi] =
      .ok (if ((hi ++ lo).toInt.natAbs : Int) = c.dutyMax + 1 ∧ 0 < (hi ++ lo).toInt then .subSolOn k
        else if ((hi ++ lo).toInt.natAbs : Int) = c.dutyMax + 1 then .subSolOff k
        else .subMotor k (hi ++ lo).toInt, [])

/-- The sentinel words of any legal configuration, with the rows of the rule's table (30_encoding R85). -/
def Obligations.SentinelWordsOfEveryDutyMax : Prop :=
  ∀ (c : Config) (k : Nat), c.legal = true → k < c.numSub →
    encode c (.subSolOn k) = (if c.dutyMax ≤ 32766 then some (bytesOf (enc16 (c.dutyMax + 1))) else none)
      ∧ encode c (.subSolOff k) = some (bytesOf (enc16 (-(c.dutyMax + 1))))
      ∧ (c.dutyMax = 32766 → enc16 (c.dutyMax + 1) = 0x7FFF#16 ∧ enc16 (-(c.dutyMax + 1)) = 0x8001#16)
      ∧ (c.dutyMax = 32767 → enc16 (-(c.dutyMax + 1)) = 0x8000#16)
      ∧ ∀ w : Word16,
          (decode c (c.numMain + k) (bytesOf w) = .ok (.subSolOn k, [])
              ↔ c.dutyMax ≤ 32766 ∧ w = enc16 (c.dutyMax + 1))
            ∧ (decode c (c.numMain + k) (bytesOf w) = .ok (.subSolOff k, []) ↔ w = enc16 (-(c.dutyMax + 1)))
            ∧ (decode c (c.numMain + k) (bytesOf w) = .ok (.subMotor k w.toInt, [])
                ↔ ¬ (c.dutyMax ≤ 32766 ∧ w = enc16 (c.dutyMax + 1)) ∧ w ≠ enc16 (-(c.dutyMax + 1)))

/-- Writing a duty's two bytes into the frame and decoding gives the duty (30_encoding R93). -/
def Obligations.DutyBytesRoundTrip : Prop :=
  ∀ (s : State) (i : Nat) (v : Int), -32768 ≤ v → v ≤ 32767 → i < s.cfg.numWords →
    memWf s.frameSize s.frame = true →
    ∃ t, exec .decode { s with frame := memSet (memSet s.frame (2 * i) ((enc16 v).extractLsb' 0 8))
                                          (2 * i + 1) ((enc16 v).extractLsb' 8 8) } = .next t
      ∧ t.duty[i]? = some v

/-- Each pseudo-instruction spells the operation that its row names, and the assembler refuses a motor
item on a sentinel and a solenoid-on item without an encoding (30_encoding R92). -/
def Obligations.PseudoInstructionsSelectTheirOperations : Prop :=
  ∀ (c : Config), c.legal = true →
    (∀ (m : Nat) (d : Int) (i : Nat) (w : Word16), expand c (.drive m d) = some (i, w) →
        i = m ∧ w = enc16 d ∧ decode c i (bytesOf w) = .ok (.mainDrive m d, []))
      ∧ (∀ (k : Nat) (d : Int) (i : Nat) (w : Word16), expand c (.motor k d) = some (i, w) →
        i = c.numMain + k ∧ w = enc16 d ∧ decode c i (bytesOf w) = .ok (.subMotor k d, []))
      ∧ (∀ (k i : Nat) (w : Word16), expand c (.solOn k) = some (i, w) →
        i = c.numMain + k ∧ w = enc16 (c.dutyMax + 1) ∧ decode c i (bytesOf w) = .ok (.subSolOn k, []))
      ∧ (∀ (k i : Nat) (w : Word16), expand c (.solOff k) = some (i, w) →
        i = c.numMain + k ∧ w = enc16 (-(c.dutyMax + 1)) ∧ decode c i (bytesOf w) = .ok (.subSolOff k, []))
      ∧ (∀ m : Nat, expand c (.stop m) = expand c (.drive m 0))
      ∧ (∀ k : Nat, expand c (.brake k) = expand c (.motor k 0))
      ∧ (∀ (k : Nat) (d : Int), (d.natAbs : Int) = c.dutyMax + 1 → expand c (.motor k d) = none)
      ∧ (∀ k : Nat, c.dutyMax = 32767 → expand c (.solOn k) = none)
      ∧ (∀ (m : Nat) (d : Int), m < c.numMain → -32768 ≤ d → d ≤ 32767 → (expand c (.drive m d)).isSome = true)
      ∧ (∀ (k : Nat) (d : Int), k < c.numSub → -32768 ≤ d → d ≤ 32767 → (d.natAbs : Int) ≠ c.dutyMax + 1 →
        (expand c (.motor k d)).isSome = true)
      ∧ (∀ k : Nat, k < c.numSub → (expand c (.solOff k)).isSome = true
        ∧ (c.dutyMax ≠ 32767 → (expand c (.solOn k)).isSome = true))

-- ==== Frame buffer ====

/-- A byte written to the frame buffer is read back, every other byte keeps, and the canonical form
holds; two canonical buffers that read alike are equal (20_memory R60, R67). The form is the model's
own choice (log 21). -/
def Obligations.FrameBufferReadsBackWhatIsWritten : Prop :=
  ∀ (size a : Nat) (b : Byte) (m : List Host.Cell), memWf size m = true → a < size →
    memWf size (memSet m a b) = true
      ∧ (∀ x, memGet (memSet m a b) x = if x = a then b else memGet m x)
      ∧ ∀ m', memWf size m' = true → (∀ x, memGet m x = memGet m' x) → m = m'

/-- DECODE gives all `N` duties, each the little-endian signed word of its two bytes, and changes
nothing else (20_memory R61, 44_decoder_and_cycle R180, which writes no state of the spec's). That the
duties are left in the field `duty` is the model's choice (log 9). -/
def Obligations.DecodeReadsLittleEndianDuties : Prop :=
  ∀ s : State, ∃ ds, exec .decode s = .next { s with duty := ds } ∧ ds.length = s.cfg.numWords
    ∧ ∀ i, i < s.cfg.numWords →
        ds[i]? = some ((memGet s.frame (2 * i + 1) ++ memGet s.frame (2 * i)).toInt)

/-- FETCH_FRAME takes the newest frame handed over, if any, and empties the slot; with none the buffer
is kept; nothing else of the block changes (44_decoder_and_cycle R181, 20_memory R76). That the frames
handed over are the pending one and the script's, landing at the fetch, is log 7; the script and its
advance are the model's own (log 4). -/
def Obligations.FetchTakesTheNewestFrame : Prop :=
  ∀ s : State, (∀ f ∈ s.handedOver, f.length = s.frameSize) →
    ∃ t, exec .fetchFrame s = .next t
      ∧ t = { s with frame := t.frame, pending := none,
                     env := { s.env with deliveries := s.env.deliveries.tail, draws := s.env.draws + 1 } }
      ∧ (s.newestFrame = none → t.frame = s.frame)
      ∧ ∀ f, s.newestFrame = some f → memWf s.frameSize t.frame = true ∧ ∀ a, memGet t.frame a = f.getD a 0

/-- A frame that is not exactly `2N` bytes has no move: the transport's move with it is refused, and so is
the fetch when any frame handed over is one, the newest or not (20_memory R65, 60_exceptions R213). That
the model refuses at the fetch is log 7. -/
def Obligations.FetchRefusesAFrameOfAnotherLength : Prop :=
  ∀ (s : State) (f : Frame), f.length ≠ s.frameSize →
    s.transportDeliver f = .refused .frameLength
      ∧ (f ∈ s.handedOver → exec .fetchFrame s = .refused .frameLength)

/-- Two complete frames delivered in a row: both moves are made, and the fetch sees the second
(44_decoder_and_cycle R181, 20_memory R76). -/
def Obligations.OfTwoDeliveriesTheLaterIsSeen : Prop :=
  ∀ (s : State) (x y : Frame) (ds : List (List Frame)), s.env.deliveries = [] :: ds →
    x.length = s.frameSize → y.length = s.frameSize →
    ∃ t, andThen (deliverAll [x, y] s) (exec .fetchFrame) = .next t ∧ t.pending = none
      ∧ ∀ a, memGet t.frame a = y.getD a 0

-- ==== Voltage ====

/-- VSAMPLE writes the floored conversion of one raw sample to `V_NOW`, and no other state of the block
(40_voltage_sampler R100, R103); the script of answers, which it also advances, is the model's own (log 4),
and so is that a script's answer up to `RAW_MAX` is the one given (log 6). -/
def Obligations.VsampleWritesTheFlooredVoltage : Prop :=
  ∀ s : State, s.nextRaw ≤ s.cfg.rawMax
    ∧ (∀ r rest, s.env.adc = r :: rest → r ≤ s.cfg.rawMax → s.nextRaw = r)
    ∧ exec .vsample s = .next { s with
        vNow := max ((s.nextRaw : ℚ) * (s.cfg.vRefMax / s.cfg.adcFullScale)) s.cfg.vMin, vNowWritten := true
        env := { s.env with adc := s.env.adc.tail, draws := s.env.draws + 1 } }

/-- VSAMPLE_FILT blends one raw sample into the filter; the floor clamp is stored back only if
`EMA_CLAMP_STATE` (40_voltage_sampler R101). The script of answers, which it also advances, is the model's
own (log 4). -/
def Obligations.VsampleFiltBlendsAndFloors : Prop :=
  ∀ (s : State) (e r : ℚ),
    e = s.cfg.emaAlpha * s.emaState
          + (1 - s.cfg.emaAlpha) * ((s.nextRaw : ℚ) * (s.cfg.vRefMax / s.cfg.adcFullScale)) →
    r = max e s.cfg.vMin →
    exec .vsampleFilt s = .next { s with
      emaState := if s.cfg.emaClampState = true then r else e, vFilt := r, vFiltWritten := true
      env := { s.env with adc := s.env.adc.tail, draws := s.env.draws + 1 } }

/-- Every voltage the sampler returns is at least `V_MIN`, and exactly `V_MIN` for a sample below it
(40_voltage_sampler R102). -/
def Obligations.SampledVoltagesAreFloored : Prop :=
  ∀ s : State,
    (∃ t, exec .vsample s = .next t ∧ s.cfg.vMin ≤ t.vNow
        ∧ (rawVolts s.cfg s.nextRaw ≤ s.cfg.vMin → t.vNow = s.cfg.vMin)
        ∧ (s.cfg.vMin ≤ rawVolts s.cfg s.nextRaw → t.vNow = rawVolts s.cfg s.nextRaw))
      ∧ ∃ t, exec .vsampleFilt s = .next t ∧ s.cfg.vMin ≤ t.vFilt
        ∧ (emaBlend s.cfg s.emaState (rawVolts s.cfg s.nextRaw) ≤ s.cfg.vMin → t.vFilt = s.cfg.vMin)
        ∧ (s.cfg.vMin ≤ emaBlend s.cfg s.emaState (rawVolts s.cfg s.nextRaw) →
            t.vFilt = emaBlend s.cfg s.emaState (rawVolts s.cfg s.nextRaw))

/-- The filter's registers reach nothing else: two states that differ only in them do the same, in every
operation and every step, up to those registers (10_state R33, 40_voltage_sampler R101). -/
def Obligations.FilterRegistersReachNothingElse : Prop :=
  ∀ s t : State, sameButFilter s t →
    (∀ i, outcomesAgree sameButFilter (exec i s) (exec i t)) ∧ outcomesAgree sameButFilter (step s) (step t)

-- ==== Slew limiter ====

/-- SLEW_LIMIT returns what the rule's pseudocode returns and writes no state of the block; the value
stands in the model's own `slewRet` (41_slew_limiter R120, log 9). -/
def Obligations.SlewLimitReturnsTheLimitedDuty : Prop :=
  ∀ (s : State) (req prev limit : Int),
    exec (.slewLimit req prev limit) s = .next { s with
      slewRet := if req = prev then prev
        else if limit < ((req - prev).natAbs : Int) then prev + (req - prev).sign * limit else req }

/-- The laws of the slew limit: bounded change, the request within the bound, between the two duties,
when it stays, and how many calls a held request takes (41_slew_limiter R121). -/
def Obligations.SlewLimitLaws : Prop :=
  ∀ req prev limit : Int, inWordRange req → inWordRange prev → 0 ≤ limit →
    ((slewLimit req prev limit - prev).natAbs : Int) ≤ limit
      ∧ (((req - prev).natAbs : Int) ≤ limit → slewLimit req prev limit = req)
      ∧ min prev req ≤ slewLimit req prev limit ∧ slewLimit req prev limit ≤ max prev req
      ∧ inWordRange (slewLimit req prev limit)
      ∧ (slewLimit req prev limit = prev ↔ req = prev ∨ limit = 0)
      ∧ (1 ≤ limit → ∀ n : Nat, (fun p => slewLimit req p limit)^[n] prev = req
          ↔ ⌈((req - prev).natAbs : ℚ) / limit⌉ ≤ (n : Int))

/-- A held duty is reached after exactly `ceil(|d - p| / DUTY_DIFF_MAX)` operations, on a main channel
and on a sub channel (70_reset_and_hazards R239). -/
def Obligations.HeldDutyIsReachedInCeilCalls : Prop :=
  ∀ (s : State) (k n : Nat) (d : Int), 1 ≤ s.cfg.dutyDiffMax →
    (∀ c, s.mains[k]? = some c → ∃ t c', repeatExec (.mainDrive k d) n s = .next t ∧ t.mains[k]? = some c'
        ∧ (c'.prev = d ↔ ⌈((d - c.prev).natAbs : ℚ) / s.cfg.dutyDiffMax⌉ ≤ (n : Int)))
      ∧ ∀ c, s.subs[k]? = some c → ∃ t c', repeatExec (.subMotor k d) n s = .next t ∧ t.subs[k]? = some c'
        ∧ (c'.prev = d ↔ ⌈((d - c.prev).natAbs : ℚ) / s.cfg.dutyDiffMax⌉ ≤ (n : Int))

-- ==== Main channel ====

/-- MAIN_DRIVE: on the fast path only `F_RANGE` can change; otherwise the channel takes the limited
duty, its level and its direction, with the level written before the direction, and nothing else of the
block changes (42_main_channel R130). -/
def Obligations.MainDriveAppliesTheLimitedDuty : Prop :=
  ∀ (s : State) (m : Nat) (d d1 lvl : Int) (c : MainChan), s.mains[m]? = some c →
    d1 = slewLimit d c.prev s.cfg.dutyDiffMax →
    lvl = min (max (roundAway ((s.cfg.pwmResolution : ℚ) * (d1.natAbs : ℚ) * s.cfg.vMin / ((s.cfg.dutyMax : ℚ) * s.vNow))) 0)
            s.cfg.pwmResolution →
    exec (.mainDrive m d) s = .next (
      if d1 = c.prev then { s with fRange := s.fRange || decide (s.cfg.dutyMax < (d.natAbs : Int)) }
      else { s with
        fRange := s.fRange || decide (s.cfg.dutyMax < (d.natAbs : Int))
        mains := s.mains.set m ⟨d1, lvl, if d1 < 0 then .neg else .nonneg⟩
        events := s.events ++ [.pinWrite (.main m) lvl, .dirWrite m (if d1 < 0 then .neg else .nonneg)] })

/-- The fast path reads duties only: whatever the voltage, a limited duty equal to the last one writes
no output (42_main_channel R134). -/
def Obligations.FastPathIgnoresTheVoltage : Prop :=
  ∀ (s : State) (m : Nat) (d : Int) (v : ℚ) (c : MainChan), s.mains[m]? = some c →
    slewLimit d c.prev s.cfg.dutyDiffMax = c.prev →
    ∃ t, exec (.mainDrive m d) { s with vNow := v } = .next t
      ∧ t = { s with vNow := v, fRange := t.fRange }

/-- `round`: to nearest, ties away from zero (00_scope R11). -/
def Obligations.RoundIsToNearestTiesAway : Prop :=
  ∀ x : ℚ, (0 ≤ x → roundAway x = ⌊x + 1 / 2⌋) ∧ (x < 0 → roundAway x = -⌊-x + 1 / 2⌋)
    ∧ |(roundAway x : ℚ) - x| ≤ 1 / 2
    ∧ ∀ n : Int, |(n : ℚ) - x| = 1 / 2 → n.natAbs ≤ (roundAway x).natAbs

/-- The main level is the clamped rounding of the exact fraction, and on an in-range duty the clamp does
nothing (42_main_channel R131). -/
def Obligations.MainLevelIsTheRoundedFraction : Prop :=
  ∀ (c : Config) (d : Int) (v pre : ℚ), c.legal = true → c.vMin ≤ v →
    pre = (c.pwmResolution : ℚ) * (d.natAbs : ℚ) * c.vMin / ((c.dutyMax : ℚ) * v) →
    mainLevel c d v = min (max (roundAway pre) 0) c.pwmResolution
      ∧ ((d.natAbs : Int) ≤ c.dutyMax → 0 ≤ pre ∧ pre ≤ c.pwmResolution ∧ mainLevel c d v = roundAway pre)

/-- The compensated level lies between 0 and the uncompensated one, which is at most `PWM_RESOLUTION`,
and does not increase with the voltage (42_main_channel R135). -/
def Obligations.MainLevelIsBoundedAndAntitone : Prop :=
  ∀ (c : Config) (d : Int) (v : ℚ), c.legal = true → (d.natAbs : Int) ≤ c.dutyMax → c.vMin ≤ v →
    0 ≤ mainLevel c d v
      ∧ mainLevel c d v ≤ roundAway ((c.pwmResolution : ℚ) * (d.natAbs : ℚ) / (c.dutyMax : ℚ))
      ∧ roundAway ((c.pwmResolution : ℚ) * (d.natAbs : ℚ) / (c.dutyMax : ℚ)) ≤ c.pwmResolution
      ∧ ∀ w, v ≤ w → mainLevel c d w ≤ mainLevel c d v

/-- The electrical level of a direction pin: `DIR_LEVEL_NEG` for NEG, its complement for NONNEG
(10_state R25); after a MAIN_DRIVE that moves the channel it follows the sign of the applied duty. -/
def Obligations.DirectionPinFollowsTheAppliedDuty : Prop :=
  ∀ (s t : State) (m : Nat) (d : Int) (c c' : MainChan), s.mains[m]? = some c → c.dir = dirOf c.prev →
    exec (.mainDrive m d) s = .next t → t.mains[m]? = some c' →
    dirPinLevel s.cfg c'.dir = if c'.prev < 0 then s.cfg.dirLevelNeg else !s.cfg.dirLevelNeg

-- ==== Sub channel ====

/-- SUB_MOTOR: on the fast path only `F_RANGE` can change; otherwise, on a three-valued sign change, the
active pin is written to rest and the new side selected, then the active pin takes the level and the
channel the limited duty; nothing else of the block changes (43_sub_channel R151). -/
def Obligations.SubMotorAppliesTheLimitedDuty : Prop :=
  ∀ (s : State) (k : Nat) (d d1 lvl : Int) (x : Side) (c base : SubChan), s.subs[k]? = some c →
    d1 = slewLimit d c.prev s.cfg.dutyDiffMax →
    lvl = min (max (roundAway ((s.cfg.pwmResolution : ℚ)
            * (1 - (d1.natAbs : ℚ) * s.cfg.vMin / ((s.cfg.dutyMax : ℚ) * s.vNow)))) 0) s.cfg.pwmResolution →
    base = (if d1.sign = c.prev.sign then c
            else match c.active with
              | .a => { c with levelA := s.cfg.pwmResolution }
              | .b => { c with levelB := s.cfg.pwmResolution }) →
    x = (if d1.sign = c.prev.sign then c.active else if 0 < d1 then .a else .b) →
    exec (.subMotor k d) s = .next (
      if d1 = c.prev then { s with fRange := s.fRange || decide (s.cfg.dutyMax < (d.natAbs : Int)) }
      else { s with
        fRange := s.fRange || decide (s.cfg.dutyMax < (d.natAbs : Int))
        subs := s.subs.set k (match x with
          | .a => { base with levelA := lvl, active := .a, prev := d1 }
          | .b => { base with levelB := lvl, active := .b, prev := d1 })
        events := s.events ++ (if d1.sign = c.prev.sign then []
            else [.pinWrite (.sub k c.active) s.cfg.pwmResolution]) ++ [.pinWrite (.sub k x) lvl] })

/-- The sub level of duty 0 is the rest level; on an in-range duty the clamp does nothing, and the sub
level is the complement of the main level, but for one more at an exact half (43_sub_channel R150). -/
def Obligations.SubLevelComplementsMainLevel : Prop :=
  ∀ (c : Config) (d : Int) (v : ℚ), c.legal = true → c.vMin ≤ v →
    subLevel c 0 v = c.pwmResolution
      ∧ ((d.natAbs : Int) ≤ c.dutyMax →
          subLevel c d v = roundAway ((c.pwmResolution : ℚ) * (1 - (d.natAbs : ℚ) * c.vMin / ((c.dutyMax : ℚ) * v)))
          ∧ subLevel c d v = c.pwmResolution - mainLevel c d v
              + (if Int.fract ((c.pwmResolution : ℚ) * (d.natAbs : ℚ) * c.vMin / ((c.dutyMax : ℚ) * v)) = 1 / 2 then 1 else 0))

/-- SOLENOID_SWITCH: one clock draw; within the dwell, where the gate applies, nothing is written; in the
same state the refresh pattern is written and the timer kept; otherwise the pattern, the state and the
timer are written (43_sub_channel R153, with the patterns of R159). Which answer the clock gives is the
model's reading of 10_state R44 (log 5). The elapsed time is the unsigned 64-bit difference; in a state
whose `SOL_T0` lies ahead of the clock, which no run reaches, that is the model's choice (log 16). -/
def Obligations.SolenoidSwitchDropsRefreshesOrSwitches : Prop :=
  ∀ (s : State) (k : Nat) (on : Bool) (c : SubChan) (now : Instant) (drawn : State),
    s.subs[k]? = some c → now = s.nextNow →
    drawn = { s with env := { s.env with clock := s.env.clock.tail, lastNow := now, draws := s.env.draws + 1 } } →
    s.env.lastNow ≤ now
      ∧ (∀ x rest, s.env.clock = x :: rest → s.env.lastNow ≤ x → now = x)
      ∧ exec (.solenoidSwitch k on) s = .next (
          if (c.sol ≠ .uninit ∨ s.cfg.solFirstGated = true) ∧ (now - c.t0).toNat < s.cfg.solenoidTime then drawn
          else if c.sol = (if on then .on else .off) then
            match s.cfg.solRefresh, on with
            | .statePattern, true =>
              { drawn with
                subs := s.subs.set k { c with levelA := s.cfg.pwmResolution, levelB := 0 }
                events := s.events ++ [.pinWrite (.sub k .a) s.cfg.pwmResolution, .pinWrite (.sub k .b) 0] }
            | .statePattern, false =>
              { drawn with
                subs := s.subs.set k { c with levelA := 0, levelB := s.cfg.pwmResolution }
                events := s.events ++ [.pinWrite (.sub k .b) s.cfg.pwmResolution, .pinWrite (.sub k .a) 0] }
            | .bothRest, _ =>
              { drawn with
                subs := s.subs.set k { c with levelA := s.cfg.pwmResolution, levelB := s.cfg.pwmResolution }
                events := s.events ++ [.pinWrite (.sub k .a) s.cfg.pwmResolution,
                  .pinWrite (.sub k .b) s.cfg.pwmResolution] }
          else if on then
            { drawn with
              subs := s.subs.set k { c with levelA := s.cfg.pwmResolution, levelB := 0, sol := .on, t0 := now }
              events := s.events ++ [.pinWrite (.sub k .a) s.cfg.pwmResolution, .pinWrite (.sub k .b) 0] }
          else
            { drawn with
              subs := s.subs.set k { c with levelA := 0, levelB := s.cfg.pwmResolution, sol := .off, t0 := now }
              events := s.events ++ [.pinWrite (.sub k .b) s.cfg.pwmResolution, .pinWrite (.sub k .a) 0] })

/-- SUB_SOL_ON and SUB_SOL_OFF are SOLENOID_SWITCH with their target; they raise no flag and leave every
motor register, of the sub channels (`SUB_PREV`, `SUB_ACTIVE`) and of the main channels
(43_sub_channel R154, R155). -/
def Obligations.SolenoidRequestsSwitchToTheirTarget : Prop :=
  ∀ (s : State) (k : Nat), k < s.subs.length →
    (∃ t, exec (.subSolOn k) s = .next t ∧ exec (.solenoidSwitch k true) s = .next t ∧ t.fRange = s.fRange
        ∧ t.subs.map (·.prev) = s.subs.map (·.prev)
        ∧ t.subs.map (·.active) = s.subs.map (·.active) ∧ t.mains = s.mains)
      ∧ ∃ t, exec (.subSolOff k) s = .next t ∧ exec (.solenoidSwitch k false) s = .next t ∧ t.fRange = s.fRange
        ∧ t.subs.map (·.prev) = s.subs.map (·.prev)
        ∧ t.subs.map (·.active) = s.subs.map (·.active) ∧ t.mains = s.mains

/-- SUB_DISPATCH runs exactly the operation that the sentinel test selects (43_sub_channel R156). -/
def Obligations.SubDispatchRunsTheSelectedOperation : Prop :=
  ∀ (s : State) (k : Nat) (d : Int), k < s.subs.length →
    ∃ t, exec (.subDispatch k d) s = .next t
      ∧ exec (if (d.natAbs : Int) = s.cfg.dutyMax + 1 ∧ 0 < d then .subSolOn k
              else if (d.natAbs : Int) = s.cfg.dutyMax + 1 then .subSolOff k
              else .subMotor k d) s = .next t

/-- The two sub-modes keep each other's registers, on every sub channel (43_sub_channel R158). -/
def Obligations.SubModesKeepEachOthersRegisters : Prop :=
  ∀ (s : State) (k : Nat) (d : Int) (on : Bool), k < s.subs.length →
    (∃ t, exec (.subMotor k d) s = .next t ∧ t.subs.map (·.sol) = s.subs.map (·.sol)
        ∧ t.subs.map (·.t0) = s.subs.map (·.t0))
      ∧ ∃ t, exec (.solenoidSwitch k on) s = .next t ∧ t.subs.map (·.prev) = s.subs.map (·.prev)
        ∧ t.subs.map (·.active) = s.subs.map (·.active)

/-- Within one step of a state of the invariant the elapsed time of the dwell test never wraps: every
accepted transition lies in the clock's past (43_sub_channel R153, 10_state R44). -/
def Obligations.DwellElapsedTimeNeverWraps : Prop :=
  ∀ (s : State) (c : SubChan), s.Inv → c ∈ s.subs →
    (s.nextNow - c.t0).toNat = s.nextNow.toNat - c.t0.toNat ∧ c.t0.toNat ≤ s.nextNow.toNat

/-- A channel operation on a channel that the machine does not have stops with the model's own fault
(log 12). -/
def Obligations.AbsentChannelsFault : Prop :=
  ∀ (s : State) (k : Nat) (d : Int) (on : Bool),
    (s.mains.length ≤ k → exec (.mainDrive k d) s = .fault .noSuchChannel)
      ∧ (s.subs.length ≤ k → exec (.subMotor k d) s = .fault .noSuchChannel
          ∧ exec (.subSolOn k) s = .fault .noSuchChannel ∧ exec (.subSolOff k) s = .fault .noSuchChannel
          ∧ exec (.solenoidSwitch k on) s = .fault .noSuchChannel
          ∧ exec (.subDispatch k d) s = .fault .noSuchChannel)

/-- A sub channel that gets no solenoid request keeps its inactive pin at rest through every step, and
after every single pin write at least one of its pins is at rest (43_sub_channel R157, motor-only). -/
def Obligations.MotorOnlyPinsStayExclusive : Prop :=
  ∀ (s t : State) (k : Nat) (c : SubChan), s.Inv → step s = .next t → s.subs[k]? = some c →
    c.inactiveAtRest s.cfg → (∀ i, issued s = .ok i → ¬ requestsSolenoid s.cfg k i) →
    ∃ c' new, t.subs[k]? = some c' ∧ c'.inactiveAtRest s.cfg ∧ t.events = s.events ++ new
      ∧ ∀ p, p <+: new → oneAtRest s.cfg (pinsOfSub k (c.levelA, c.levelB) p)

/-- A sub channel that gets no motor word keeps at least one pin at rest, after every single pin write
(43_sub_channel R157, solenoid-only). -/
def Obligations.SolenoidOnlyPinsStayExclusive : Prop :=
  ∀ (s t : State) (k : Nat) (c : SubChan), s.Inv → step s = .next t → s.subs[k]? = some c →
    oneAtRest s.cfg (c.levelA, c.levelB) → (∀ d, issued s ≠ .ok (.subMotor k d)) →
    ∃ c' new, t.subs[k]? = some c' ∧ oneAtRest s.cfg (c'.levelA, c'.levelB) ∧ t.events = s.events ++ new
      ∧ ∀ p, p <+: new → oneAtRest s.cfg (pinsOfSub k (c.levelA, c.levelB) p)

-- ==== Startup and the control cycle ====

/-- CONFIGURE writes every output to its reset value in channel order, sets `PHASE`, and without the
gate asserts the power stage (44_decoder_and_cycle R186). -/
def Obligations.ConfigureWritesEveryOutput : Prop :=
  ∀ s : State, s.mains.length = s.cfg.numMain → s.subs.length = s.cfg.numSub →
    exec .configure s = .next { s with
      mains := s.mains.map fun c => { c with level := 0, dir := .nonneg }
      subs := s.subs.map fun c => { c with levelA := s.cfg.pwmResolution, levelB := s.cfg.pwmResolution }
      phase := if s.cfg.gateEn = true then .gate else .loop
      powerEn := s.powerEn || !s.cfg.gateEn
      events := s.events
        ++ (List.range s.cfg.numMain).flatMap (fun m => [.pinWrite (.main m) 0, .dirWrite m .nonneg])
        ++ (List.range s.cfg.numSub).flatMap (fun k =>
            [.pinWrite (.sub k .a) s.cfg.pwmResolution, .pinWrite (.sub k .b) s.cfg.pwmResolution])
        ++ (if s.cfg.gateEn = true then [] else [.powerEnable]) }

/-- One poll of the startup gate: a strict comparison; a passing poll asserts the power stage and enters
the loop, another changes no register of the block (44_decoder_and_cycle R187). Where the answer comes from,
the script or a free value, and the script's advance, also by a failing poll, are the model's own (log 4). -/
def Obligations.StartupGatePollsStrictly : Prop :=
  ∀ (s : State) (g : Nat) (drawn : State),
    g = s.env.gateAdc.headD (Config.freeGateRaw s.env.draws) →
    drawn = { s with env := { s.env with gateAdc := s.env.gateAdc.tail, draws := s.env.draws + 1 } } →
    exec .startupGate s = .next (
      if s.cfg.vMin < (g : ℚ) * s.cfg.vScaleGate then
        { drawn with powerEn := true, phase := .loop, events := s.events ++ [.powerEnable] }
      else drawn)

/-- POWER_ENABLE asserts the output, and no operation deasserts it (44_decoder_and_cycle R188,
10_state R35). -/
def Obligations.PowerEnableAssertsForGood : Prop :=
  (∀ s : State, exec .powerEnable s = .next { s with powerEn := true, events := s.events ++ [.powerEnable] })
    ∧ ∀ (i : Instr) (s t : State), exec i s = .next t → s.powerEn = true → t.powerEn = true

/-- The power stage is asserted at most once: through every step the record holds one assertion if
`POWER_EN` is 1 and none otherwise (44_decoder_and_cycle R188). -/
def Obligations.PowerEnableHappensOnce : Prop :=
  ∀ s t : State, s.Inv → step s = .next t →
    s.events.count .powerEnable = (if s.powerEn = true then 1 else 0) →
    t.events.count .powerEnable = (if t.powerEn = true then 1 else 0)

/-- SLEEP changes no state (44_decoder_and_cycle R185). -/
def Obligations.SleepChangesNothing : Prop := ∀ s : State, exec .sleep s = .next s

/-- CONTROL_CYCLE at a cycle boundary of a state of the invariant, with a transport that keeps its duty,
completes: it counts one cycle, stays in the loop at a cycle boundary, and keeps the invariant
(44_decoder_and_cycle R182). The stage and the duties it speaks of are the model's own (log 8, log 9). -/
def Obligations.ControlCycleCompletes : Prop :=
  ∀ s : State, s.Inv → s.transportOk → s.phase = .loop → s.stage = .vsample →
    ∃ t, exec .controlCycle s = .next t ∧ t.Inv ∧ t.transportOk ∧ t.cycleN = s.cycleN + 1 ∧ t.phase = .loop
      ∧ t.stage = .vsample ∧ t.cfg = s.cfg ∧ t.frameDuties = some t.duty ∧ t.vNowWritten = true

/-- CONTROL_CYCLE as one operation does what its stages do as steps: `N + 4` steps, one more in a filter
cycle, from a cycle boundary (44_decoder_and_cycle R182, R183, R184). That the machine steps stage by
stage is the model's choice (log 8). -/
def Obligations.ControlCycleIsItsSteps : Prop :=
  ∀ s : State, s.cfg.legal = true → s.phase = .loop → s.stage = .vsample →
    repeatStep (s.cfg.numWords + 4 + if s.cycleN % s.cfg.filtPeriodK = 0 then 1 else 0) s
      = exec .controlCycle s

/-- A step at a slot of a decoded frame runs the operation that the slot's word decodes to, and the
sequencer moves to the next slot, or after the last to SLEEP: main channels before sub channels, each
file in ascending index (44_decoder_and_cycle R182, R184). One slot a step is the model's choice (log 8). -/
def Obligations.StepRunsTheDecodedWord : Prop :=
  ∀ (s : State) (k : Nat) (i : Instr), s.cfg.legal = true → s.phase = .loop → s.stage = .slot k →
    k < s.cfg.numWords → s.frameDuties = some s.duty →
    decode s.cfg k [memGet s.frame (2 * k), memGet s.frame (2 * k + 1)] = .ok (i, []) →
    i.wf s.cfg = true ∧ slotIndex s.cfg i = some k
      ∧ step s = match exec i s with
          | .next t => .next { t with stage := if k + 1 < s.cfg.numWords then .slot (k + 1) else .sleep }
          | .fault f => .fault f
          | .refused r => .refused r

/-- The operations a step issues outside the slots, at every point of the sequence, and where the
sequencer goes after each (70_reset_and_hazards R230, 44_decoder_and_cycle R182, R183). The stages are the
model's own (log 8). -/
def Obligations.StepIssuesTheFixedSequence : Prop :=
  ∀ s : State, s.cfg.legal = true →
    (s.phase = .configure → step s = exec .configure s)
      ∧ (s.phase = .gate → step s = exec .startupGate s)
      ∧ (s.phase = .loop → s.stage = .vsample →
          step s = andThen (exec .vsample s) fun t => .next { t with
            stage := if s.cycleN % s.cfg.filtPeriodK = 0 then .vsampleFilt else .fetch })
      ∧ (s.phase = .loop → s.stage = .vsampleFilt →
          step s = andThen (exec .vsampleFilt s) fun t => .next { t with stage := .fetch })
      ∧ (s.phase = .loop → s.stage = .fetch →
          step s = andThen (exec .fetchFrame s) fun t => .next { t with stage := .decode })
      ∧ (s.phase = .loop → s.stage = .decode →
          step s = andThen (exec .decode s) fun t => .next { t with stage := .slot 0 })
      ∧ (s.phase = .loop → s.stage = .sleep →
          step s = .next { s with cycleN := s.cycleN + 1, stage := .vsample })

/-- The filtered sample is taken exactly in the cycles with `CYCLE_N mod FILT_PERIOD_K = 0`: the step after
VSAMPLE runs VSAMPLE_FILT there and FETCH_FRAME in every other cycle, and no other step of the loop leads
to VSAMPLE_FILT (44_decoder_and_cycle R183). The stages are the model's own (log 8). -/
def Obligations.FilterRunsEveryKthCycle : Prop :=
  (∀ s : State, s.cfg.legal = true → s.phase = .loop → s.stage = .vsample →
      ∃ t u, exec .vsample s = .next t ∧ step s = .next u
        ∧ u = { t with stage := if s.cycleN % s.cfg.filtPeriodK = 0 then .vsampleFilt else .fetch }
        ∧ step u = if s.cycleN % s.cfg.filtPeriodK = 0
            then andThen (exec .vsampleFilt u) fun v => .next { v with stage := .fetch }
            else andThen (exec .fetchFrame u) fun v => .next { v with stage := .decode })
    ∧ ∀ s u : State, s.phase = .loop → step s = .next u → issued u = .ok .vsampleFilt →
        s.stage = .vsample ∧ s.cycleN % s.cfg.filtPeriodK = 0

-- ==== The whole machine ====

/-- A legal configuration boots into a state of the invariant (70_reset_and_hazards R230, R233), and so
does `State.reset`, the reset state of the reference configuration (log 1, log 2). The clause on
`V_NOW`'s register before its first write is the model's choice (log 3). -/
def Obligations.BootedStateHasTheInvariant : Prop :=
  (∀ c : Config, c.legal = true →
      boot c = .next (State.resetOf c) ∧ (State.resetOf c).Inv ∧ (State.resetOf c).transportOk)
    ∧ State.reset.Inv

/-- Every step keeps the invariant of Safety.lean: register ranges (10_state R23 to R28), the floor of the
voltages (R31), the direction and the active side that follow the last applied duty (42_main_channel
R133, 43_sub_channel R152), a canonical frame buffer (log 21), transitions in the clock's past, and a
power stage that is on exactly in the loop (70_reset_and_hazards R230); its clauses on the stages are of
the model's own sequencer (log 8), that on the voltages before their first write is log 3. -/
def Obligations.EveryStepKeepsTheInvariant : Prop :=
  ∀ s t : State, s.Inv → step s = .next t → t.Inv

/-- The block never stops: from every state of the invariant, with a transport that keeps its duty, a
step answers a next state, and the transport's duty still holds (60_exceptions R210,
44_decoder_and_cycle R189). -/
def Obligations.TheBlockNeverStops : Prop :=
  ∀ s : State, s.Inv → s.transportOk → ∃ t, step s = .next t ∧ t.Inv ∧ t.transportOk

/-- `PHASE` advances Configure, Gate, Loop and never goes back (10_state R22). -/
def Obligations.PhaseNeverGoesBack : Prop :=
  ∀ s t : State, step s = .next t →
    (s.phase = .configure → t.phase = if s.cfg.gateEn = true then .gate else .loop)
      ∧ (s.phase = .gate → t.phase = .gate ∨ t.phase = .loop)
      ∧ (s.phase = .loop → t.phase = .loop)

/-- `F_RANGE` is 0 at reset, no operation clears it, and a single operation sets it exactly on an
out-of-range duty of MAIN_DRIVE or SUB_MOTOR (10_state R34). -/
def Obligations.RangeFlagIsStickyAndExact : Prop :=
  (∀ c : Config, (State.resetOf c).fRange = false)
    ∧ ∀ (i : Instr) (s t : State), exec i s = .next t →
        (s.fRange = true → t.fRange = true)
          ∧ (i ≠ .controlCycle → t.fRange = (s.fRange || match i with
              | .mainDrive _ d => decide (s.cfg.dutyMax < (d.natAbs : Int))
              | .subMotor _ d => decide (s.cfg.dutyMax < (d.natAbs : Int))
              | .subDispatch _ d => decide (s.cfg.dutyMax + 1 < (d.natAbs : Int))
              | _ => false))

/-- No operation reads `F_RANGE`: states that differ only in it do the same, in every operation and every
step, up to it (10_state R37). -/
def Obligations.RangeFlagIsNeverRead : Prop :=
  ∀ s t : State, sameButRange s t →
    (∀ i, outcomesAgree sameButRange (exec i s) (exec i t)) ∧ outcomesAgree sameButRange (step s) (step t)

/-- No operation writes a configuration register (10_state R38). -/
def Obligations.ConfigurationIsReadOnly : Prop :=
  ∀ (i : Instr) (s t : State), exec i s = .next t → t.cfg = s.cfg

/-- Each register is written only by the operations that its rule names (10_state R22 to R36), and an
operation on one channel leaves the registers of every other channel (10_state R40); CONTROL_CYCLE, which
runs them all, apart. -/
def Obligations.RegistersHaveTheirWriters : Prop :=
  ∀ (i : Instr) (s t : State), exec i s = .next t → i ≠ .controlCycle →
    t.cycleN = s.cycleN
      ∧ (t.vNow ≠ s.vNow ∨ t.vNowWritten ≠ s.vNowWritten → i = .vsample)
      ∧ (t.emaState ≠ s.emaState ∨ t.vFilt ≠ s.vFilt ∨ t.vFiltWritten ≠ s.vFiltWritten → i = .vsampleFilt)
      ∧ (t.fRange ≠ s.fRange → ∃ k d, i = .mainDrive k d ∨ i = .subMotor k d ∨ i = .subDispatch k d)
      ∧ (t.frame ≠ s.frame ∨ t.pending ≠ s.pending → i = .fetchFrame)
      ∧ (t.powerEn ≠ s.powerEn → i = .powerEnable ∨ i = .startupGate ∨ i = .configure)
      ∧ (t.phase ≠ s.phase → i = .startupGate ∨ i = .configure)
      ∧ (t.mains.map (·.prev) ≠ s.mains.map (·.prev) → ∃ m d, i = .mainDrive m d)
      ∧ (t.mains ≠ s.mains → i = .configure ∨ ∃ m d, i = .mainDrive m d)
      ∧ (t.subs.map (·.prev) ≠ s.subs.map (·.prev) ∨ t.subs.map (·.active) ≠ s.subs.map (·.active) →
          ∃ k d, i = .subMotor k d ∨ i = .subDispatch k d)
      ∧ (t.subs.map (·.sol) ≠ s.subs.map (·.sol) ∨ t.subs.map (·.t0) ≠ s.subs.map (·.t0) →
          ∃ k d on, i = .subSolOn k ∨ i = .subSolOff k ∨ i = .solenoidSwitch k on ∨ i = .subDispatch k d)
      ∧ (t.subs.map (fun c => (c.levelA, c.levelB)) ≠ s.subs.map (fun c => (c.levelA, c.levelB)) →
          i = .configure ∨ ∃ k, onSubChannel k i)
      ∧ (∀ m d, i = .mainDrive m d → t.subs = s.subs ∧ ∀ m', m' ≠ m → t.mains[m']? = s.mains[m']?)
      ∧ ∀ k, onSubChannel k i → t.mains = s.mains ∧ ∀ k', k' ≠ k → t.subs[k']? = s.subs[k']?

/-- The clock never runs backwards, in any operation (10_state R44): the model makes every answer at least
the last one (log 5). -/
def Obligations.ClockNeverDecreases : Prop :=
  ∀ (i : Instr) (s t : State), exec i s = .next t → s.env.lastNow ≤ t.env.lastNow

/-- A solenoid that has left Uninit never returns to it, in any step (10_state R29). -/
def Obligations.SolenoidNeverReturnsToUninit : Prop :=
  ∀ (s t : State) (k : Nat) (c : SubChan), step s = .next t → s.subs[k]? = some c → c.sol ≠ .uninit →
    ∃ c', t.subs[k]? = some c' ∧ c'.sol ≠ .uninit

/-- A motor operation (MAIN_DRIVE, SUB_MOTOR) and any operation of a different channel, a solenoid request
too, can run in either order: the same state but for the order of the write events, of which none is lost,
changed or doubled (44_decoder_and_cycle R184). Two solenoid requests of different channels draw the clock
one after the other (10_state R44); they commute as well where the two draws give one answer. -/
def Obligations.MotorChannelsCommute : Prop :=
  ∀ (s t : State) (i j : Instr), differentChannels i j →
    (isMotor s.cfg i ∨ isMotor s.cfg j ∨ s.nextNow = s.drawNow.2.nextNow) →
    andThen (exec i s) (exec j) = .next t →
      ∃ t' x y, andThen (exec j s) (exec i) = .next t'
        ∧ t.events = s.events ++ x ++ y ∧ t'.events = s.events ++ y ++ x ∧ sameButEvents t t'

/-- The ports hold what the write events say: through every step of a state of the invariant, each
level and direction register is its old value updated by the new events in order (00_scope R12, R13). The record
of events is the model's (log 10). -/
def Obligations.PortsHoldWhatWasWritten : Prop :=
  ∀ s t : State, s.Inv → step s = .next t →
    ∃ new, t.events = s.events ++ new
      ∧ (∀ m c, s.mains[m]? = some c → ∃ c', t.mains[m]? = some c'
          ∧ c'.level = pinOfMain m c.level new ∧ c'.dir = dirOfMain m c.dir new)
      ∧ ∀ k c, s.subs[k]? = some c → ∃ c', t.subs[k]? = some c'
          ∧ (c'.levelA, c'.levelB) = pinsOfSub k (c.levelA, c.levelB) new

/-- An illegal configuration is refused: it boots into no machine, and no state with one steps
(00_scope R8, 60_exceptions R212). The first clause speaks of R8's bounds; that the model also refuses a
configuration outside R7's legal values, and that the step refuses, are the model's choice (log 18). -/
def Obligations.IllegalConfigurationsAreRefused : Prop :=
  (∀ c : Config, ¬ (1 ≤ c.dutyMax ∧ c.dutyMax ≤ 32767 ∧ 0 ≤ c.dutyDiffMax ∧ 1 ≤ c.pwmResolution ∧ 0 < c.vMin
        ∧ 0 < c.vRefMax / (c.adcFullScale : ℚ) ∧ 0 ≤ c.emaAlpha ∧ c.emaAlpha ≤ 1 ∧ 1 ≤ c.filtPeriodK
        ∧ 1 ≤ c.numMain + c.numSub) → boot c = .refused .configRefused)
    ∧ ∀ s : State, s.cfg.legal = false → step s = .refused .configRefused

/-- The reset value of every field of the spec's state (10_state R20). -/
def Obligations.ResetValues : Prop :=
  ∀ c : Config,
    (State.resetOf c).phase = .configure ∧ (State.resetOf c).cycleN = 0
      ∧ (State.resetOf c).mains = List.replicate c.numMain ⟨0, 0, .nonneg⟩
      ∧ (State.resetOf c).subs = List.replicate c.numSub ⟨0, .b, c.pwmResolution, c.pwmResolution, .uninit, 0⟩
      ∧ (State.resetOf c).vNowWritten = false ∧ (State.resetOf c).emaState = c.vFiltInit
      ∧ (State.resetOf c).vFiltWritten = false ∧ (State.resetOf c).fRange = false
      ∧ (State.resetOf c).powerEn = false ∧ (State.resetOf c).cfg = c
      ∧ ∀ a, memGet (State.resetOf c).frame a = 0
end

