-- ==== Sys2Proof/Laws/Memory.lean ====
section
/-! SUPPORT. The frame buffer: read after write, the canonical form and who keeps it, and what DECODE
reads (20_memory R60, R61). -/

namespace Sys2Proof.Machine

@[simp] theorem memGet_nil (a : Nat) : memGet [] a = 0 := rfl

/-- A canonical memory reads 0x00 below its first address. -/
theorem memGet_below (size lo : Nat) (m : List Host.Cell) (h : memWfFrom size lo m = true) (a : Nat) (ha : a < lo) :
    memGet m a = 0 := by
  induction m generalizing lo with
  | nil => rfl
  | cons kv rest ih =>
    obtain ⟨k, v⟩ := kv
    simp only [memWfFrom, Bool.and_eq_true, decide_eq_true_eq] at h
    simp only [memGet]
    rw [if_neg (by omega)]
    exact ih (k + 1) h.2 (by omega)

/-- A canonical memory reads 0x00 outside its size. -/
theorem memGet_outside (size lo : Nat) (m : List Host.Cell) (h : memWfFrom size lo m = true) (a : Nat) (ha : size ≤ a) :
    memGet m a = 0 := by
  induction m generalizing lo with
  | nil => rfl
  | cons kv rest ih =>
    obtain ⟨k, v⟩ := kv
    simp only [memWfFrom, Bool.and_eq_true, decide_eq_true_eq] at h
    simp only [memGet]
    rw [if_neg (by omega)]
    exact ih (k + 1) h.2

/-- A lower bound on the addresses of a canonical memory may be lowered. -/
theorem memWfFrom_lower (size lo lo' : Nat) (m : List Host.Cell) (hl : lo' ≤ lo) (h : memWfFrom size lo m = true) :
    memWfFrom size lo' m = true := by
  cases m with
  | nil => rfl
  | cons kv rest =>
    obtain ⟨k, v⟩ := kv
    simp only [memWfFrom, Bool.and_eq_true, decide_eq_true_eq] at h ⊢
    exact ⟨⟨⟨by omega, h.1.1.2⟩, h.1.2⟩, h.2⟩

/-- Writing a byte keeps the canonical form. -/
theorem memSet_keeps_wfFrom (size lo a : Nat) (b : Byte) (m : List Host.Cell) (h : memWfFrom size lo m = true)
    (hlo : lo ≤ a) (ha : a < size) : memWfFrom size lo (memSet m a b) = true := by
  induction m generalizing lo with
  | nil =>
    simp only [memSet]
    split
    · rfl
    · rename_i hb
      simpa [memWfFrom, hlo, ha] using hb
  | cons kv rest ih =>
    obtain ⟨k, v⟩ := kv
    simp only [memWfFrom, Bool.and_eq_true, decide_eq_true_eq] at h
    obtain ⟨⟨⟨h1, h2⟩, h3⟩, h4⟩ := h
    simp only [memSet]
    split
    · split
      · simp [memWfFrom, h1, h2, h4]; simpa using h3
      · rename_i hb
        have : memWfFrom size (a + 1) ((k, v) :: rest) = true := by
          simp only [memWfFrom, Bool.and_eq_true, decide_eq_true_eq]
          exact ⟨⟨⟨by omega, h2⟩, h3⟩, h4⟩
        simp only [memWfFrom, Bool.and_eq_true, decide_eq_true_eq, Bool.not_eq_true', decide_eq_false_iff_not] at this ⊢
        exact ⟨⟨⟨hlo, ha⟩, hb⟩, this⟩
    · split
      · split
        · exact memWfFrom_lower size (k + 1) lo rest (by omega) h4
        · rename_i hab hb
          subst hab
          simpa [memWfFrom, hlo, ha, h4] using hb
      · have := ih (k + 1) h4 (by omega)
        simp [memWfFrom, h1, h2, this]; simpa using h3

/-- Writing a byte keeps the canonical form of a frame buffer. -/
theorem memSet_keeps_wf (size a : Nat) (b : Byte) (m : List Host.Cell) (h : memWf size m = true) (ha : a < size) :
    memWf size (memSet m a b) = true :=
  memSet_keeps_wfFrom size 0 a b m h (Nat.zero_le a) ha

/-- Read after write. -/
theorem memGet_memSet_from (size lo a : Nat) (b : Byte) (m : List Host.Cell) (h : memWfFrom size lo m = true) (x : Nat) :
    memGet (memSet m a b) x = if x = a then b else memGet m x := by
  induction m generalizing lo with
  | nil =>
    simp only [memSet]
    split
    · split <;> simp [*]
    · simp only [memGet]
      split <;> split <;> simp_all
  | cons kv rest ih =>
    obtain ⟨k, v⟩ := kv
    simp only [memWfFrom, Bool.and_eq_true, decide_eq_true_eq] at h
    obtain ⟨⟨⟨h1, h2⟩, h3⟩, h4⟩ := h
    have below := memGet_below size (k + 1) rest h4
    simp only [memSet]
    split
    · split
      · rename_i hlt hb
        by_cases hx : x = a
        · subst hx
          simp only [memGet, if_true, hb]
          rw [if_neg (by omega), below x (by omega)]
        · simp [hx]
      · simp only [memGet]
        by_cases hx : x = a
        · simp [hx]
        · simp [hx, Ne.symm hx]
    · split
      · rename_i hlt hab
        subst hab
        split
        · rename_i hb
          simp only [memGet]
          by_cases hx : x = a
          · subst hx
            simp [hb, below x (by omega)]
          · simp [hx, Ne.symm hx]
        · simp only [memGet]
          by_cases hx : x = a
          · simp [hx]
          · simp [hx, Ne.symm hx]
      · simp only [memGet, ih (k + 1) h4]
        by_cases hx : x = a
        · subst hx
          rw [if_neg (by omega)]
          simp
        · simp [hx]

/-- Read after write in a frame buffer. -/
theorem memGet_memSet (size a : Nat) (b : Byte) (m : List Host.Cell) (h : memWf size m = true) (x : Nat) :
    memGet (memSet m a b) x = if x = a then b else memGet m x :=
  memGet_memSet_from size 0 a b m h x

/-- The memory of a list of bytes has the canonical form. -/
theorem memOfBytes_wfFrom (size a : Nat) (bs : List Byte) (h : a + bs.length ≤ size) :
    memWfFrom size a (memOfBytes a bs) = true := by
  induction bs generalizing a with
  | nil => rfl
  | cons b bs ih =>
    simp only [List.length_cons] at h
    simp only [memOfBytes]
    have := ih (a + 1) (by omega)
    split
    · exact memWfFrom_lower size (a + 1) a _ (by omega) this
    · rename_i hb
      simp only [memWfFrom, Bool.and_eq_true, decide_eq_true_eq, Bool.not_eq_true', decide_eq_false_iff_not]
      exact ⟨⟨⟨by omega, by omega⟩, hb⟩, this⟩

/-- The memory of a list of bytes reads as the list, and 0x00 elsewhere. -/
theorem memGet_memOfBytes (a : Nat) (bs : List Byte) (x : Nat) :
    memGet (memOfBytes a bs) x = if x < a then 0 else bs.getD (x - a) 0 := by
  induction bs generalizing a with
  | nil => simp [memOfBytes]
  | cons b bs ih =>
    have step : ∀ y, y ≠ a → (if y < a + 1 then (0 : Byte) else bs.getD (y - (a + 1)) 0)
        = if y < a then 0 else (b :: bs).getD (y - a) 0 := by
      intro y hy
      by_cases h : y < a
      · simp [h, Nat.lt_succ_of_lt h]
      · rw [if_neg (by omega), if_neg h]
        obtain ⟨j, hj⟩ : ∃ j, y - a = j + 1 := ⟨y - a - 1, by omega⟩
        rw [hj, show y - (a + 1) = j by omega]
        simp
    simp only [memOfBytes]
    split
    · rename_i hb
      rw [ih]
      by_cases hx : x = a
      · subst hx; simp [hb]
      · exact step x hx
    · simp only [memGet]
      by_cases hx : x = a
      · subst hx; simp
      · rw [if_neg (Ne.symm hx), ih]
        exact step x hx

/-- Inside the buffer a read gives the byte. -/
theorem State.memRead_inside (s : State) (a : Nat) (h : a < s.frameSize) : s.memRead a = some (memGet s.frame a) := by
  simp [State.memRead, h]

/-- Every word of the frame has a duty: its two bytes, low byte first. -/
theorem State.frameDuty_inside (s : State) (i : Nat) (h : i < s.cfg.numWords) :
    s.frameDuty i = some (sext16 (wordOfBytes (memGet s.frame (2 * i)) (memGet s.frame (2 * i + 1)))) := by
  have size : s.frameSize = 2 * s.cfg.numWords := rfl
  simp [State.frameDuty, s.memRead_inside (2 * i) (by omega), s.memRead_inside (2 * i + 1) (by omega)]

/-- The duties of words of the frame are all there. -/
theorem State.frameDutiesOf_inside (s : State) (is : List Nat) (h : ∀ i ∈ is, i < s.cfg.numWords) :
    s.frameDutiesOf is =
      some (is.map fun i => sext16 (wordOfBytes (memGet s.frame (2 * i)) (memGet s.frame (2 * i + 1)))) := by
  induction is with
  | nil => rfl
  | cons i is ih =>
    simp only [State.frameDutiesOf, s.frameDuty_inside i (h i (by simp)), ih fun j hj => h j (by simp [hj]), List.map_cons]

/-- What DECODE computes. -/
theorem State.frameDuties_eq (s : State) :
    s.frameDuties = some ((List.range s.cfg.numWords).map fun i =>
      sext16 (wordOfBytes (memGet s.frame (2 * i)) (memGet s.frame (2 * i + 1)))) :=
  s.frameDutiesOf_inside _ fun _ hi => List.mem_range.mp hi

/-- The duties depend on the configuration and the frame buffer only. -/
theorem State.frameDuties_congr (s t : State) (hc : t.cfg = s.cfg) (hf : t.frame = s.frame) :
    t.frameDuties = s.frameDuties := by
  rw [State.frameDuties_eq, State.frameDuties_eq, hc, hf]

end Sys2Proof.Machine
end

