-- ==== Sys2Proof/Laws/State.lean ====
section
/-! SUPPORT. What each update of the state leaves in each field: one lemma per field per update, so that
no later proof unfolds a record update. -/

namespace Sys2Proof.Machine

section
variable (s : State)

-- withEnv
@[simp] theorem State.withEnv_cfg (e : Env) : (s.withEnv e).cfg = s.cfg := rfl
@[simp] theorem State.withEnv_phase (e : Env) : (s.withEnv e).phase = s.phase := rfl
@[simp] theorem State.withEnv_stage (e : Env) : (s.withEnv e).stage = s.stage := rfl
@[simp] theorem State.withEnv_cycleN (e : Env) : (s.withEnv e).cycleN = s.cycleN := rfl
@[simp] theorem State.withEnv_mains (e : Env) : (s.withEnv e).mains = s.mains := rfl
@[simp] theorem State.withEnv_subs (e : Env) : (s.withEnv e).subs = s.subs := rfl
@[simp] theorem State.withEnv_vNow (e : Env) : (s.withEnv e).vNow = s.vNow := rfl
@[simp] theorem State.withEnv_vNowWritten (e : Env) : (s.withEnv e).vNowWritten = s.vNowWritten := rfl
@[simp] theorem State.withEnv_emaState (e : Env) : (s.withEnv e).emaState = s.emaState := rfl
@[simp] theorem State.withEnv_vFilt (e : Env) : (s.withEnv e).vFilt = s.vFilt := rfl
@[simp] theorem State.withEnv_vFiltWritten (e : Env) : (s.withEnv e).vFiltWritten = s.vFiltWritten := rfl
@[simp] theorem State.withEnv_fRange (e : Env) : (s.withEnv e).fRange = s.fRange := rfl
@[simp] theorem State.withEnv_powerEn (e : Env) : (s.withEnv e).powerEn = s.powerEn := rfl
@[simp] theorem State.withEnv_frame (e : Env) : (s.withEnv e).frame = s.frame := rfl
@[simp] theorem State.withEnv_pending (e : Env) : (s.withEnv e).pending = s.pending := rfl
@[simp] theorem State.withEnv_duty (e : Env) : (s.withEnv e).duty = s.duty := rfl
@[simp] theorem State.withEnv_slewRet (e : Env) : (s.withEnv e).slewRet = s.slewRet := rfl
@[simp] theorem State.withEnv_events (e : Env) : (s.withEnv e).events = s.events := rfl
@[simp] theorem State.withEnv_env (e : Env) : (s.withEnv e).env = e := rfl

-- hold
@[simp] theorem State.hold_cfg (f : Frame) : (s.hold f).cfg = s.cfg := rfl
@[simp] theorem State.hold_phase (f : Frame) : (s.hold f).phase = s.phase := rfl
@[simp] theorem State.hold_stage (f : Frame) : (s.hold f).stage = s.stage := rfl
@[simp] theorem State.hold_cycleN (f : Frame) : (s.hold f).cycleN = s.cycleN := rfl
@[simp] theorem State.hold_mains (f : Frame) : (s.hold f).mains = s.mains := rfl
@[simp] theorem State.hold_subs (f : Frame) : (s.hold f).subs = s.subs := rfl
@[simp] theorem State.hold_vNow (f : Frame) : (s.hold f).vNow = s.vNow := rfl
@[simp] theorem State.hold_vNowWritten (f : Frame) : (s.hold f).vNowWritten = s.vNowWritten := rfl
@[simp] theorem State.hold_emaState (f : Frame) : (s.hold f).emaState = s.emaState := rfl
@[simp] theorem State.hold_vFilt (f : Frame) : (s.hold f).vFilt = s.vFilt := rfl
@[simp] theorem State.hold_vFiltWritten (f : Frame) : (s.hold f).vFiltWritten = s.vFiltWritten := rfl
@[simp] theorem State.hold_fRange (f : Frame) : (s.hold f).fRange = s.fRange := rfl
@[simp] theorem State.hold_powerEn (f : Frame) : (s.hold f).powerEn = s.powerEn := rfl
@[simp] theorem State.hold_frame (f : Frame) : (s.hold f).frame = s.frame := rfl
@[simp] theorem State.hold_pending (f : Frame) : (s.hold f).pending = some f := rfl
@[simp] theorem State.hold_duty (f : Frame) : (s.hold f).duty = s.duty := rfl
@[simp] theorem State.hold_slewRet (f : Frame) : (s.hold f).slewRet = s.slewRet := rfl
@[simp] theorem State.hold_events (f : Frame) : (s.hold f).events = s.events := rfl
@[simp] theorem State.hold_env (f : Frame) : (s.hold f).env = s.env := rfl

-- emit
@[simp] theorem State.emit_cfg (e : Event) : (s.emit e).cfg = s.cfg := rfl
@[simp] theorem State.emit_phase (e : Event) : (s.emit e).phase = s.phase := rfl
@[simp] theorem State.emit_stage (e : Event) : (s.emit e).stage = s.stage := rfl
@[simp] theorem State.emit_cycleN (e : Event) : (s.emit e).cycleN = s.cycleN := rfl
@[simp] theorem State.emit_mains (e : Event) : (s.emit e).mains = s.mains := rfl
@[simp] theorem State.emit_subs (e : Event) : (s.emit e).subs = s.subs := rfl
@[simp] theorem State.emit_vNow (e : Event) : (s.emit e).vNow = s.vNow := rfl
@[simp] theorem State.emit_vNowWritten (e : Event) : (s.emit e).vNowWritten = s.vNowWritten := rfl
@[simp] theorem State.emit_emaState (e : Event) : (s.emit e).emaState = s.emaState := rfl
@[simp] theorem State.emit_vFilt (e : Event) : (s.emit e).vFilt = s.vFilt := rfl
@[simp] theorem State.emit_vFiltWritten (e : Event) : (s.emit e).vFiltWritten = s.vFiltWritten := rfl
@[simp] theorem State.emit_fRange (e : Event) : (s.emit e).fRange = s.fRange := rfl
@[simp] theorem State.emit_powerEn (e : Event) : (s.emit e).powerEn = s.powerEn := rfl
@[simp] theorem State.emit_frame (e : Event) : (s.emit e).frame = s.frame := rfl
@[simp] theorem State.emit_pending (e : Event) : (s.emit e).pending = s.pending := rfl
@[simp] theorem State.emit_duty (e : Event) : (s.emit e).duty = s.duty := rfl
@[simp] theorem State.emit_slewRet (e : Event) : (s.emit e).slewRet = s.slewRet := rfl
@[simp] theorem State.emit_events (e : Event) : (s.emit e).events = s.events ++ [e] := rfl
@[simp] theorem State.emit_env (e : Event) : (s.emit e).env = s.env := rfl

-- mainPin
@[simp] theorem State.mainPin_cfg (m : Nat) (lvl : Int) : (s.mainPin m lvl).cfg = s.cfg := rfl
@[simp] theorem State.mainPin_phase (m : Nat) (lvl : Int) : (s.mainPin m lvl).phase = s.phase := rfl
@[simp] theorem State.mainPin_stage (m : Nat) (lvl : Int) : (s.mainPin m lvl).stage = s.stage := rfl
@[simp] theorem State.mainPin_cycleN (m : Nat) (lvl : Int) : (s.mainPin m lvl).cycleN = s.cycleN := rfl
@[simp] theorem State.mainPin_mains (m : Nat) (lvl : Int) : (s.mainPin m lvl).mains = s.mains.modify m fun c => { c with level := lvl } := rfl
@[simp] theorem State.mainPin_subs (m : Nat) (lvl : Int) : (s.mainPin m lvl).subs = s.subs := rfl
@[simp] theorem State.mainPin_vNow (m : Nat) (lvl : Int) : (s.mainPin m lvl).vNow = s.vNow := rfl
@[simp] theorem State.mainPin_vNowWritten (m : Nat) (lvl : Int) : (s.mainPin m lvl).vNowWritten = s.vNowWritten := rfl
@[simp] theorem State.mainPin_emaState (m : Nat) (lvl : Int) : (s.mainPin m lvl).emaState = s.emaState := rfl
@[simp] theorem State.mainPin_vFilt (m : Nat) (lvl : Int) : (s.mainPin m lvl).vFilt = s.vFilt := rfl
@[simp] theorem State.mainPin_vFiltWritten (m : Nat) (lvl : Int) : (s.mainPin m lvl).vFiltWritten = s.vFiltWritten := rfl
@[simp] theorem State.mainPin_fRange (m : Nat) (lvl : Int) : (s.mainPin m lvl).fRange = s.fRange := rfl
@[simp] theorem State.mainPin_powerEn (m : Nat) (lvl : Int) : (s.mainPin m lvl).powerEn = s.powerEn := rfl
@[simp] theorem State.mainPin_frame (m : Nat) (lvl : Int) : (s.mainPin m lvl).frame = s.frame := rfl
@[simp] theorem State.mainPin_pending (m : Nat) (lvl : Int) : (s.mainPin m lvl).pending = s.pending := rfl
@[simp] theorem State.mainPin_duty (m : Nat) (lvl : Int) : (s.mainPin m lvl).duty = s.duty := rfl
@[simp] theorem State.mainPin_slewRet (m : Nat) (lvl : Int) : (s.mainPin m lvl).slewRet = s.slewRet := rfl
@[simp] theorem State.mainPin_events (m : Nat) (lvl : Int) : (s.mainPin m lvl).events = s.events ++ [.pinWrite (.main m) lvl] := rfl
@[simp] theorem State.mainPin_env (m : Nat) (lvl : Int) : (s.mainPin m lvl).env = s.env := rfl

-- mainDir
@[simp] theorem State.mainDir_cfg (m : Nat) (d : Dir) : (s.mainDir m d).cfg = s.cfg := rfl
@[simp] theorem State.mainDir_phase (m : Nat) (d : Dir) : (s.mainDir m d).phase = s.phase := rfl
@[simp] theorem State.mainDir_stage (m : Nat) (d : Dir) : (s.mainDir m d).stage = s.stage := rfl
@[simp] theorem State.mainDir_cycleN (m : Nat) (d : Dir) : (s.mainDir m d).cycleN = s.cycleN := rfl
@[simp] theorem State.mainDir_mains (m : Nat) (d : Dir) : (s.mainDir m d).mains = s.mains.modify m fun c => { c with dir := d } := rfl
@[simp] theorem State.mainDir_subs (m : Nat) (d : Dir) : (s.mainDir m d).subs = s.subs := rfl
@[simp] theorem State.mainDir_vNow (m : Nat) (d : Dir) : (s.mainDir m d).vNow = s.vNow := rfl
@[simp] theorem State.mainDir_vNowWritten (m : Nat) (d : Dir) : (s.mainDir m d).vNowWritten = s.vNowWritten := rfl
@[simp] theorem State.mainDir_emaState (m : Nat) (d : Dir) : (s.mainDir m d).emaState = s.emaState := rfl
@[simp] theorem State.mainDir_vFilt (m : Nat) (d : Dir) : (s.mainDir m d).vFilt = s.vFilt := rfl
@[simp] theorem State.mainDir_vFiltWritten (m : Nat) (d : Dir) : (s.mainDir m d).vFiltWritten = s.vFiltWritten := rfl
@[simp] theorem State.mainDir_fRange (m : Nat) (d : Dir) : (s.mainDir m d).fRange = s.fRange := rfl
@[simp] theorem State.mainDir_powerEn (m : Nat) (d : Dir) : (s.mainDir m d).powerEn = s.powerEn := rfl
@[simp] theorem State.mainDir_frame (m : Nat) (d : Dir) : (s.mainDir m d).frame = s.frame := rfl
@[simp] theorem State.mainDir_pending (m : Nat) (d : Dir) : (s.mainDir m d).pending = s.pending := rfl
@[simp] theorem State.mainDir_duty (m : Nat) (d : Dir) : (s.mainDir m d).duty = s.duty := rfl
@[simp] theorem State.mainDir_slewRet (m : Nat) (d : Dir) : (s.mainDir m d).slewRet = s.slewRet := rfl
@[simp] theorem State.mainDir_events (m : Nat) (d : Dir) : (s.mainDir m d).events = s.events ++ [.dirWrite m d] := rfl
@[simp] theorem State.mainDir_env (m : Nat) (d : Dir) : (s.mainDir m d).env = s.env := rfl

-- setMainPrev
@[simp] theorem State.setMainPrev_cfg (m : Nat) (d : Int) : (s.setMainPrev m d).cfg = s.cfg := rfl
@[simp] theorem State.setMainPrev_phase (m : Nat) (d : Int) : (s.setMainPrev m d).phase = s.phase := rfl
@[simp] theorem State.setMainPrev_stage (m : Nat) (d : Int) : (s.setMainPrev m d).stage = s.stage := rfl
@[simp] theorem State.setMainPrev_cycleN (m : Nat) (d : Int) : (s.setMainPrev m d).cycleN = s.cycleN := rfl
@[simp] theorem State.setMainPrev_mains (m : Nat) (d : Int) : (s.setMainPrev m d).mains = s.mains.modify m fun c => { c with prev := d } := rfl
@[simp] theorem State.setMainPrev_subs (m : Nat) (d : Int) : (s.setMainPrev m d).subs = s.subs := rfl
@[simp] theorem State.setMainPrev_vNow (m : Nat) (d : Int) : (s.setMainPrev m d).vNow = s.vNow := rfl
@[simp] theorem State.setMainPrev_vNowWritten (m : Nat) (d : Int) : (s.setMainPrev m d).vNowWritten = s.vNowWritten := rfl
@[simp] theorem State.setMainPrev_emaState (m : Nat) (d : Int) : (s.setMainPrev m d).emaState = s.emaState := rfl
@[simp] theorem State.setMainPrev_vFilt (m : Nat) (d : Int) : (s.setMainPrev m d).vFilt = s.vFilt := rfl
@[simp] theorem State.setMainPrev_vFiltWritten (m : Nat) (d : Int) : (s.setMainPrev m d).vFiltWritten = s.vFiltWritten := rfl
@[simp] theorem State.setMainPrev_fRange (m : Nat) (d : Int) : (s.setMainPrev m d).fRange = s.fRange := rfl
@[simp] theorem State.setMainPrev_powerEn (m : Nat) (d : Int) : (s.setMainPrev m d).powerEn = s.powerEn := rfl
@[simp] theorem State.setMainPrev_frame (m : Nat) (d : Int) : (s.setMainPrev m d).frame = s.frame := rfl
@[simp] theorem State.setMainPrev_pending (m : Nat) (d : Int) : (s.setMainPrev m d).pending = s.pending := rfl
@[simp] theorem State.setMainPrev_duty (m : Nat) (d : Int) : (s.setMainPrev m d).duty = s.duty := rfl
@[simp] theorem State.setMainPrev_slewRet (m : Nat) (d : Int) : (s.setMainPrev m d).slewRet = s.slewRet := rfl
@[simp] theorem State.setMainPrev_events (m : Nat) (d : Int) : (s.setMainPrev m d).events = s.events := rfl
@[simp] theorem State.setMainPrev_env (m : Nat) (d : Int) : (s.setMainPrev m d).env = s.env := rfl

-- subPin
@[simp] theorem State.subPin_cfg (k : Nat) (x : Side) (lvl : Int) : (s.subPin k x lvl).cfg = s.cfg := rfl
@[simp] theorem State.subPin_phase (k : Nat) (x : Side) (lvl : Int) : (s.subPin k x lvl).phase = s.phase := rfl
@[simp] theorem State.subPin_stage (k : Nat) (x : Side) (lvl : Int) : (s.subPin k x lvl).stage = s.stage := rfl
@[simp] theorem State.subPin_cycleN (k : Nat) (x : Side) (lvl : Int) : (s.subPin k x lvl).cycleN = s.cycleN := rfl
@[simp] theorem State.subPin_mains (k : Nat) (x : Side) (lvl : Int) : (s.subPin k x lvl).mains = s.mains := rfl
@[simp] theorem State.subPin_subs (k : Nat) (x : Side) (lvl : Int) : (s.subPin k x lvl).subs = s.subs.modify k fun c => c.withLevel x lvl := rfl
@[simp] theorem State.subPin_vNow (k : Nat) (x : Side) (lvl : Int) : (s.subPin k x lvl).vNow = s.vNow := rfl
@[simp] theorem State.subPin_vNowWritten (k : Nat) (x : Side) (lvl : Int) : (s.subPin k x lvl).vNowWritten = s.vNowWritten := rfl
@[simp] theorem State.subPin_emaState (k : Nat) (x : Side) (lvl : Int) : (s.subPin k x lvl).emaState = s.emaState := rfl
@[simp] theorem State.subPin_vFilt (k : Nat) (x : Side) (lvl : Int) : (s.subPin k x lvl).vFilt = s.vFilt := rfl
@[simp] theorem State.subPin_vFiltWritten (k : Nat) (x : Side) (lvl : Int) : (s.subPin k x lvl).vFiltWritten = s.vFiltWritten := rfl
@[simp] theorem State.subPin_fRange (k : Nat) (x : Side) (lvl : Int) : (s.subPin k x lvl).fRange = s.fRange := rfl
@[simp] theorem State.subPin_powerEn (k : Nat) (x : Side) (lvl : Int) : (s.subPin k x lvl).powerEn = s.powerEn := rfl
@[simp] theorem State.subPin_frame (k : Nat) (x : Side) (lvl : Int) : (s.subPin k x lvl).frame = s.frame := rfl
@[simp] theorem State.subPin_pending (k : Nat) (x : Side) (lvl : Int) : (s.subPin k x lvl).pending = s.pending := rfl
@[simp] theorem State.subPin_duty (k : Nat) (x : Side) (lvl : Int) : (s.subPin k x lvl).duty = s.duty := rfl
@[simp] theorem State.subPin_slewRet (k : Nat) (x : Side) (lvl : Int) : (s.subPin k x lvl).slewRet = s.slewRet := rfl
@[simp] theorem State.subPin_events (k : Nat) (x : Side) (lvl : Int) : (s.subPin k x lvl).events = s.events ++ [.pinWrite (.sub k x) lvl] := rfl
@[simp] theorem State.subPin_env (k : Nat) (x : Side) (lvl : Int) : (s.subPin k x lvl).env = s.env := rfl

-- setSubActive
@[simp] theorem State.setSubActive_cfg (k : Nat) (x : Side) : (s.setSubActive k x).cfg = s.cfg := rfl
@[simp] theorem State.setSubActive_phase (k : Nat) (x : Side) : (s.setSubActive k x).phase = s.phase := rfl
@[simp] theorem State.setSubActive_stage (k : Nat) (x : Side) : (s.setSubActive k x).stage = s.stage := rfl
@[simp] theorem State.setSubActive_cycleN (k : Nat) (x : Side) : (s.setSubActive k x).cycleN = s.cycleN := rfl
@[simp] theorem State.setSubActive_mains (k : Nat) (x : Side) : (s.setSubActive k x).mains = s.mains := rfl
@[simp] theorem State.setSubActive_subs (k : Nat) (x : Side) : (s.setSubActive k x).subs = s.subs.modify k fun c => { c with active := x } := rfl
@[simp] theorem State.setSubActive_vNow (k : Nat) (x : Side) : (s.setSubActive k x).vNow = s.vNow := rfl
@[simp] theorem State.setSubActive_vNowWritten (k : Nat) (x : Side) : (s.setSubActive k x).vNowWritten = s.vNowWritten := rfl
@[simp] theorem State.setSubActive_emaState (k : Nat) (x : Side) : (s.setSubActive k x).emaState = s.emaState := rfl
@[simp] theorem State.setSubActive_vFilt (k : Nat) (x : Side) : (s.setSubActive k x).vFilt = s.vFilt := rfl
@[simp] theorem State.setSubActive_vFiltWritten (k : Nat) (x : Side) : (s.setSubActive k x).vFiltWritten = s.vFiltWritten := rfl
@[simp] theorem State.setSubActive_fRange (k : Nat) (x : Side) : (s.setSubActive k x).fRange = s.fRange := rfl
@[simp] theorem State.setSubActive_powerEn (k : Nat) (x : Side) : (s.setSubActive k x).powerEn = s.powerEn := rfl
@[simp] theorem State.setSubActive_frame (k : Nat) (x : Side) : (s.setSubActive k x).frame = s.frame := rfl
@[simp] theorem State.setSubActive_pending (k : Nat) (x : Side) : (s.setSubActive k x).pending = s.pending := rfl
@[simp] theorem State.setSubActive_duty (k : Nat) (x : Side) : (s.setSubActive k x).duty = s.duty := rfl
@[simp] theorem State.setSubActive_slewRet (k : Nat) (x : Side) : (s.setSubActive k x).slewRet = s.slewRet := rfl
@[simp] theorem State.setSubActive_events (k : Nat) (x : Side) : (s.setSubActive k x).events = s.events := rfl
@[simp] theorem State.setSubActive_env (k : Nat) (x : Side) : (s.setSubActive k x).env = s.env := rfl

-- setSubPrev
@[simp] theorem State.setSubPrev_cfg (k : Nat) (d : Int) : (s.setSubPrev k d).cfg = s.cfg := rfl
@[simp] theorem State.setSubPrev_phase (k : Nat) (d : Int) : (s.setSubPrev k d).phase = s.phase := rfl
@[simp] theorem State.setSubPrev_stage (k : Nat) (d : Int) : (s.setSubPrev k d).stage = s.stage := rfl
@[simp] theorem State.setSubPrev_cycleN (k : Nat) (d : Int) : (s.setSubPrev k d).cycleN = s.cycleN := rfl
@[simp] theorem State.setSubPrev_mains (k : Nat) (d : Int) : (s.setSubPrev k d).mains = s.mains := rfl
@[simp] theorem State.setSubPrev_subs (k : Nat) (d : Int) : (s.setSubPrev k d).subs = s.subs.modify k fun c => { c with prev := d } := rfl
@[simp] theorem State.setSubPrev_vNow (k : Nat) (d : Int) : (s.setSubPrev k d).vNow = s.vNow := rfl
@[simp] theorem State.setSubPrev_vNowWritten (k : Nat) (d : Int) : (s.setSubPrev k d).vNowWritten = s.vNowWritten := rfl
@[simp] theorem State.setSubPrev_emaState (k : Nat) (d : Int) : (s.setSubPrev k d).emaState = s.emaState := rfl
@[simp] theorem State.setSubPrev_vFilt (k : Nat) (d : Int) : (s.setSubPrev k d).vFilt = s.vFilt := rfl
@[simp] theorem State.setSubPrev_vFiltWritten (k : Nat) (d : Int) : (s.setSubPrev k d).vFiltWritten = s.vFiltWritten := rfl
@[simp] theorem State.setSubPrev_fRange (k : Nat) (d : Int) : (s.setSubPrev k d).fRange = s.fRange := rfl
@[simp] theorem State.setSubPrev_powerEn (k : Nat) (d : Int) : (s.setSubPrev k d).powerEn = s.powerEn := rfl
@[simp] theorem State.setSubPrev_frame (k : Nat) (d : Int) : (s.setSubPrev k d).frame = s.frame := rfl
@[simp] theorem State.setSubPrev_pending (k : Nat) (d : Int) : (s.setSubPrev k d).pending = s.pending := rfl
@[simp] theorem State.setSubPrev_duty (k : Nat) (d : Int) : (s.setSubPrev k d).duty = s.duty := rfl
@[simp] theorem State.setSubPrev_slewRet (k : Nat) (d : Int) : (s.setSubPrev k d).slewRet = s.slewRet := rfl
@[simp] theorem State.setSubPrev_events (k : Nat) (d : Int) : (s.setSubPrev k d).events = s.events := rfl
@[simp] theorem State.setSubPrev_env (k : Nat) (d : Int) : (s.setSubPrev k d).env = s.env := rfl

-- setSolenoid
@[simp] theorem State.setSolenoid_cfg (k : Nat) (x : SolState) (now : Instant) : (s.setSolenoid k x now).cfg = s.cfg := rfl
@[simp] theorem State.setSolenoid_phase (k : Nat) (x : SolState) (now : Instant) : (s.setSolenoid k x now).phase = s.phase := rfl
@[simp] theorem State.setSolenoid_stage (k : Nat) (x : SolState) (now : Instant) : (s.setSolenoid k x now).stage = s.stage := rfl
@[simp] theorem State.setSolenoid_cycleN (k : Nat) (x : SolState) (now : Instant) : (s.setSolenoid k x now).cycleN = s.cycleN := rfl
@[simp] theorem State.setSolenoid_mains (k : Nat) (x : SolState) (now : Instant) : (s.setSolenoid k x now).mains = s.mains := rfl
@[simp] theorem State.setSolenoid_subs (k : Nat) (x : SolState) (now : Instant) : (s.setSolenoid k x now).subs = s.subs.modify k fun c => { c with sol := x, t0 := now } := rfl
@[simp] theorem State.setSolenoid_vNow (k : Nat) (x : SolState) (now : Instant) : (s.setSolenoid k x now).vNow = s.vNow := rfl
@[simp] theorem State.setSolenoid_vNowWritten (k : Nat) (x : SolState) (now : Instant) : (s.setSolenoid k x now).vNowWritten = s.vNowWritten := rfl
@[simp] theorem State.setSolenoid_emaState (k : Nat) (x : SolState) (now : Instant) : (s.setSolenoid k x now).emaState = s.emaState := rfl
@[simp] theorem State.setSolenoid_vFilt (k : Nat) (x : SolState) (now : Instant) : (s.setSolenoid k x now).vFilt = s.vFilt := rfl
@[simp] theorem State.setSolenoid_vFiltWritten (k : Nat) (x : SolState) (now : Instant) : (s.setSolenoid k x now).vFiltWritten = s.vFiltWritten := rfl
@[simp] theorem State.setSolenoid_fRange (k : Nat) (x : SolState) (now : Instant) : (s.setSolenoid k x now).fRange = s.fRange := rfl
@[simp] theorem State.setSolenoid_powerEn (k : Nat) (x : SolState) (now : Instant) : (s.setSolenoid k x now).powerEn = s.powerEn := rfl
@[simp] theorem State.setSolenoid_frame (k : Nat) (x : SolState) (now : Instant) : (s.setSolenoid k x now).frame = s.frame := rfl
@[simp] theorem State.setSolenoid_pending (k : Nat) (x : SolState) (now : Instant) : (s.setSolenoid k x now).pending = s.pending := rfl
@[simp] theorem State.setSolenoid_duty (k : Nat) (x : SolState) (now : Instant) : (s.setSolenoid k x now).duty = s.duty := rfl
@[simp] theorem State.setSolenoid_slewRet (k : Nat) (x : SolState) (now : Instant) : (s.setSolenoid k x now).slewRet = s.slewRet := rfl
@[simp] theorem State.setSolenoid_events (k : Nat) (x : SolState) (now : Instant) : (s.setSolenoid k x now).events = s.events := rfl
@[simp] theorem State.setSolenoid_env (k : Nat) (x : SolState) (now : Instant) : (s.setSolenoid k x now).env = s.env := rfl

-- assertPower
@[simp] theorem State.assertPower_cfg : (s.assertPower).cfg = s.cfg := rfl
@[simp] theorem State.assertPower_phase : (s.assertPower).phase = s.phase := rfl
@[simp] theorem State.assertPower_stage : (s.assertPower).stage = s.stage := rfl
@[simp] theorem State.assertPower_cycleN : (s.assertPower).cycleN = s.cycleN := rfl
@[simp] theorem State.assertPower_mains : (s.assertPower).mains = s.mains := rfl
@[simp] theorem State.assertPower_subs : (s.assertPower).subs = s.subs := rfl
@[simp] theorem State.assertPower_vNow : (s.assertPower).vNow = s.vNow := rfl
@[simp] theorem State.assertPower_vNowWritten : (s.assertPower).vNowWritten = s.vNowWritten := rfl
@[simp] theorem State.assertPower_emaState : (s.assertPower).emaState = s.emaState := rfl
@[simp] theorem State.assertPower_vFilt : (s.assertPower).vFilt = s.vFilt := rfl
@[simp] theorem State.assertPower_vFiltWritten : (s.assertPower).vFiltWritten = s.vFiltWritten := rfl
@[simp] theorem State.assertPower_fRange : (s.assertPower).fRange = s.fRange := rfl
@[simp] theorem State.assertPower_powerEn : (s.assertPower).powerEn = true := rfl
@[simp] theorem State.assertPower_frame : (s.assertPower).frame = s.frame := rfl
@[simp] theorem State.assertPower_pending : (s.assertPower).pending = s.pending := rfl
@[simp] theorem State.assertPower_duty : (s.assertPower).duty = s.duty := rfl
@[simp] theorem State.assertPower_slewRet : (s.assertPower).slewRet = s.slewRet := rfl
@[simp] theorem State.assertPower_events : (s.assertPower).events = s.events ++ [.powerEnable] := rfl
@[simp] theorem State.assertPower_env : (s.assertPower).env = s.env := rfl

-- checkRange
@[simp] theorem State.checkRange_cfg (d : Int) : (s.checkRange d).cfg = s.cfg := rfl
@[simp] theorem State.checkRange_phase (d : Int) : (s.checkRange d).phase = s.phase := rfl
@[simp] theorem State.checkRange_stage (d : Int) : (s.checkRange d).stage = s.stage := rfl
@[simp] theorem State.checkRange_cycleN (d : Int) : (s.checkRange d).cycleN = s.cycleN := rfl
@[simp] theorem State.checkRange_mains (d : Int) : (s.checkRange d).mains = s.mains := rfl
@[simp] theorem State.checkRange_subs (d : Int) : (s.checkRange d).subs = s.subs := rfl
@[simp] theorem State.checkRange_vNow (d : Int) : (s.checkRange d).vNow = s.vNow := rfl
@[simp] theorem State.checkRange_vNowWritten (d : Int) : (s.checkRange d).vNowWritten = s.vNowWritten := rfl
@[simp] theorem State.checkRange_emaState (d : Int) : (s.checkRange d).emaState = s.emaState := rfl
@[simp] theorem State.checkRange_vFilt (d : Int) : (s.checkRange d).vFilt = s.vFilt := rfl
@[simp] theorem State.checkRange_vFiltWritten (d : Int) : (s.checkRange d).vFiltWritten = s.vFiltWritten := rfl
@[simp] theorem State.checkRange_fRange (d : Int) : (s.checkRange d).fRange = (s.fRange || outOfRange s.cfg d) := rfl
@[simp] theorem State.checkRange_powerEn (d : Int) : (s.checkRange d).powerEn = s.powerEn := rfl
@[simp] theorem State.checkRange_frame (d : Int) : (s.checkRange d).frame = s.frame := rfl
@[simp] theorem State.checkRange_pending (d : Int) : (s.checkRange d).pending = s.pending := rfl
@[simp] theorem State.checkRange_duty (d : Int) : (s.checkRange d).duty = s.duty := rfl
@[simp] theorem State.checkRange_slewRet (d : Int) : (s.checkRange d).slewRet = s.slewRet := rfl
@[simp] theorem State.checkRange_events (d : Int) : (s.checkRange d).events = s.events := rfl
@[simp] theorem State.checkRange_env (d : Int) : (s.checkRange d).env = s.env := rfl

-- setVNow
@[simp] theorem State.setVNow_cfg (v : Volts) : (s.setVNow v).cfg = s.cfg := rfl
@[simp] theorem State.setVNow_phase (v : Volts) : (s.setVNow v).phase = s.phase := rfl
@[simp] theorem State.setVNow_stage (v : Volts) : (s.setVNow v).stage = s.stage := rfl
@[simp] theorem State.setVNow_cycleN (v : Volts) : (s.setVNow v).cycleN = s.cycleN := rfl
@[simp] theorem State.setVNow_mains (v : Volts) : (s.setVNow v).mains = s.mains := rfl
@[simp] theorem State.setVNow_subs (v : Volts) : (s.setVNow v).subs = s.subs := rfl
@[simp] theorem State.setVNow_vNow (v : Volts) : (s.setVNow v).vNow = v := rfl
@[simp] theorem State.setVNow_vNowWritten (v : Volts) : (s.setVNow v).vNowWritten = true := rfl
@[simp] theorem State.setVNow_emaState (v : Volts) : (s.setVNow v).emaState = s.emaState := rfl
@[simp] theorem State.setVNow_vFilt (v : Volts) : (s.setVNow v).vFilt = s.vFilt := rfl
@[simp] theorem State.setVNow_vFiltWritten (v : Volts) : (s.setVNow v).vFiltWritten = s.vFiltWritten := rfl
@[simp] theorem State.setVNow_fRange (v : Volts) : (s.setVNow v).fRange = s.fRange := rfl
@[simp] theorem State.setVNow_powerEn (v : Volts) : (s.setVNow v).powerEn = s.powerEn := rfl
@[simp] theorem State.setVNow_frame (v : Volts) : (s.setVNow v).frame = s.frame := rfl
@[simp] theorem State.setVNow_pending (v : Volts) : (s.setVNow v).pending = s.pending := rfl
@[simp] theorem State.setVNow_duty (v : Volts) : (s.setVNow v).duty = s.duty := rfl
@[simp] theorem State.setVNow_slewRet (v : Volts) : (s.setVNow v).slewRet = s.slewRet := rfl
@[simp] theorem State.setVNow_events (v : Volts) : (s.setVNow v).events = s.events := rfl
@[simp] theorem State.setVNow_env (v : Volts) : (s.setVNow v).env = s.env := rfl

-- setFilter
@[simp] theorem State.setFilter_cfg (e r : Volts) : (s.setFilter e r).cfg = s.cfg := rfl
@[simp] theorem State.setFilter_phase (e r : Volts) : (s.setFilter e r).phase = s.phase := rfl
@[simp] theorem State.setFilter_stage (e r : Volts) : (s.setFilter e r).stage = s.stage := rfl
@[simp] theorem State.setFilter_cycleN (e r : Volts) : (s.setFilter e r).cycleN = s.cycleN := rfl
@[simp] theorem State.setFilter_mains (e r : Volts) : (s.setFilter e r).mains = s.mains := rfl
@[simp] theorem State.setFilter_subs (e r : Volts) : (s.setFilter e r).subs = s.subs := rfl
@[simp] theorem State.setFilter_vNow (e r : Volts) : (s.setFilter e r).vNow = s.vNow := rfl
@[simp] theorem State.setFilter_vNowWritten (e r : Volts) : (s.setFilter e r).vNowWritten = s.vNowWritten := rfl
@[simp] theorem State.setFilter_emaState (e r : Volts) : (s.setFilter e r).emaState = e := rfl
@[simp] theorem State.setFilter_vFilt (e r : Volts) : (s.setFilter e r).vFilt = r := rfl
@[simp] theorem State.setFilter_vFiltWritten (e r : Volts) : (s.setFilter e r).vFiltWritten = true := rfl
@[simp] theorem State.setFilter_fRange (e r : Volts) : (s.setFilter e r).fRange = s.fRange := rfl
@[simp] theorem State.setFilter_powerEn (e r : Volts) : (s.setFilter e r).powerEn = s.powerEn := rfl
@[simp] theorem State.setFilter_frame (e r : Volts) : (s.setFilter e r).frame = s.frame := rfl
@[simp] theorem State.setFilter_pending (e r : Volts) : (s.setFilter e r).pending = s.pending := rfl
@[simp] theorem State.setFilter_duty (e r : Volts) : (s.setFilter e r).duty = s.duty := rfl
@[simp] theorem State.setFilter_slewRet (e r : Volts) : (s.setFilter e r).slewRet = s.slewRet := rfl
@[simp] theorem State.setFilter_events (e r : Volts) : (s.setFilter e r).events = s.events := rfl
@[simp] theorem State.setFilter_env (e r : Volts) : (s.setFilter e r).env = s.env := rfl

-- setPhase
@[simp] theorem State.setPhase_cfg (p : Phase) : (s.setPhase p).cfg = s.cfg := rfl
@[simp] theorem State.setPhase_phase (p : Phase) : (s.setPhase p).phase = p := rfl
@[simp] theorem State.setPhase_stage (p : Phase) : (s.setPhase p).stage = s.stage := rfl
@[simp] theorem State.setPhase_cycleN (p : Phase) : (s.setPhase p).cycleN = s.cycleN := rfl
@[simp] theorem State.setPhase_mains (p : Phase) : (s.setPhase p).mains = s.mains := rfl
@[simp] theorem State.setPhase_subs (p : Phase) : (s.setPhase p).subs = s.subs := rfl
@[simp] theorem State.setPhase_vNow (p : Phase) : (s.setPhase p).vNow = s.vNow := rfl
@[simp] theorem State.setPhase_vNowWritten (p : Phase) : (s.setPhase p).vNowWritten = s.vNowWritten := rfl
@[simp] theorem State.setPhase_emaState (p : Phase) : (s.setPhase p).emaState = s.emaState := rfl
@[simp] theorem State.setPhase_vFilt (p : Phase) : (s.setPhase p).vFilt = s.vFilt := rfl
@[simp] theorem State.setPhase_vFiltWritten (p : Phase) : (s.setPhase p).vFiltWritten = s.vFiltWritten := rfl
@[simp] theorem State.setPhase_fRange (p : Phase) : (s.setPhase p).fRange = s.fRange := rfl
@[simp] theorem State.setPhase_powerEn (p : Phase) : (s.setPhase p).powerEn = s.powerEn := rfl
@[simp] theorem State.setPhase_frame (p : Phase) : (s.setPhase p).frame = s.frame := rfl
@[simp] theorem State.setPhase_pending (p : Phase) : (s.setPhase p).pending = s.pending := rfl
@[simp] theorem State.setPhase_duty (p : Phase) : (s.setPhase p).duty = s.duty := rfl
@[simp] theorem State.setPhase_slewRet (p : Phase) : (s.setPhase p).slewRet = s.slewRet := rfl
@[simp] theorem State.setPhase_events (p : Phase) : (s.setPhase p).events = s.events := rfl
@[simp] theorem State.setPhase_env (p : Phase) : (s.setPhase p).env = s.env := rfl

-- countCycle
@[simp] theorem State.countCycle_cfg : (s.countCycle).cfg = s.cfg := rfl
@[simp] theorem State.countCycle_phase : (s.countCycle).phase = s.phase := rfl
@[simp] theorem State.countCycle_stage : (s.countCycle).stage = s.stage := rfl
@[simp] theorem State.countCycle_cycleN : (s.countCycle).cycleN = s.cycleN + 1 := rfl
@[simp] theorem State.countCycle_mains : (s.countCycle).mains = s.mains := rfl
@[simp] theorem State.countCycle_subs : (s.countCycle).subs = s.subs := rfl
@[simp] theorem State.countCycle_vNow : (s.countCycle).vNow = s.vNow := rfl
@[simp] theorem State.countCycle_vNowWritten : (s.countCycle).vNowWritten = s.vNowWritten := rfl
@[simp] theorem State.countCycle_emaState : (s.countCycle).emaState = s.emaState := rfl
@[simp] theorem State.countCycle_vFilt : (s.countCycle).vFilt = s.vFilt := rfl
@[simp] theorem State.countCycle_vFiltWritten : (s.countCycle).vFiltWritten = s.vFiltWritten := rfl
@[simp] theorem State.countCycle_fRange : (s.countCycle).fRange = s.fRange := rfl
@[simp] theorem State.countCycle_powerEn : (s.countCycle).powerEn = s.powerEn := rfl
@[simp] theorem State.countCycle_frame : (s.countCycle).frame = s.frame := rfl
@[simp] theorem State.countCycle_pending : (s.countCycle).pending = s.pending := rfl
@[simp] theorem State.countCycle_duty : (s.countCycle).duty = s.duty := rfl
@[simp] theorem State.countCycle_slewRet : (s.countCycle).slewRet = s.slewRet := rfl
@[simp] theorem State.countCycle_events : (s.countCycle).events = s.events := rfl
@[simp] theorem State.countCycle_env : (s.countCycle).env = s.env := rfl

-- configureOutputs
@[simp] theorem State.configureOutputs_cfg : (s.configureOutputs).cfg = s.cfg := rfl
@[simp] theorem State.configureOutputs_phase : (s.configureOutputs).phase = s.phase := rfl
@[simp] theorem State.configureOutputs_stage : (s.configureOutputs).stage = s.stage := rfl
@[simp] theorem State.configureOutputs_cycleN : (s.configureOutputs).cycleN = s.cycleN := rfl
@[simp] theorem State.configureOutputs_mains : (s.configureOutputs).mains = s.mains.map fun c => { c with level := 0, dir := .nonneg } := rfl
@[simp] theorem State.configureOutputs_subs : (s.configureOutputs).subs = s.subs.map fun c => { c with levelA := restLevel s.cfg, levelB := restLevel s.cfg } := rfl
@[simp] theorem State.configureOutputs_vNow : (s.configureOutputs).vNow = s.vNow := rfl
@[simp] theorem State.configureOutputs_vNowWritten : (s.configureOutputs).vNowWritten = s.vNowWritten := rfl
@[simp] theorem State.configureOutputs_emaState : (s.configureOutputs).emaState = s.emaState := rfl
@[simp] theorem State.configureOutputs_vFilt : (s.configureOutputs).vFilt = s.vFilt := rfl
@[simp] theorem State.configureOutputs_vFiltWritten : (s.configureOutputs).vFiltWritten = s.vFiltWritten := rfl
@[simp] theorem State.configureOutputs_fRange : (s.configureOutputs).fRange = s.fRange := rfl
@[simp] theorem State.configureOutputs_powerEn : (s.configureOutputs).powerEn = s.powerEn := rfl
@[simp] theorem State.configureOutputs_frame : (s.configureOutputs).frame = s.frame := rfl
@[simp] theorem State.configureOutputs_pending : (s.configureOutputs).pending = s.pending := rfl
@[simp] theorem State.configureOutputs_duty : (s.configureOutputs).duty = s.duty := rfl
@[simp] theorem State.configureOutputs_slewRet : (s.configureOutputs).slewRet = s.slewRet := rfl
@[simp] theorem State.configureOutputs_events : (s.configureOutputs).events = s.events ++ configureEvents s.cfg := rfl
@[simp] theorem State.configureOutputs_env : (s.configureOutputs).env = s.env := rfl

end

@[simp] theorem State.resetOf_cfg (c : Config) : (State.resetOf c).cfg = c := rfl

@[simp] theorem SubChan.withLevel_prev (c : SubChan) (x : Side) (l : Int) : (c.withLevel x l).prev = c.prev := by
  cases x <;> rfl

@[simp] theorem SubChan.withLevel_active (c : SubChan) (x : Side) (l : Int) : (c.withLevel x l).active = c.active := by
  cases x <;> rfl

@[simp] theorem SubChan.withLevel_sol (c : SubChan) (x : Side) (l : Int) : (c.withLevel x l).sol = c.sol := by
  cases x <;> rfl

@[simp] theorem SubChan.withLevel_t0 (c : SubChan) (x : Side) (l : Int) : (c.withLevel x l).t0 = c.t0 := by
  cases x <;> rfl

@[simp] theorem SubChan.withLevel_a_levelA (c : SubChan) (l : Int) : (c.withLevel .a l).levelA = l := rfl

@[simp] theorem SubChan.withLevel_a_levelB (c : SubChan) (l : Int) : (c.withLevel .a l).levelB = c.levelB := rfl

@[simp] theorem SubChan.withLevel_b_levelA (c : SubChan) (l : Int) : (c.withLevel .b l).levelA = c.levelA := rfl

@[simp] theorem SubChan.withLevel_b_levelB (c : SubChan) (l : Int) : (c.withLevel .b l).levelB = l := rfl

end Sys2Proof.Machine
end

