-- ==== Sys2Proof/Laws/Ops.lean ====
section
/-! SUPPORT. What each shared operation can do, said once: sequencing, the environment's answers, the
hand-over of a frame, and the composite channel writes with the fields they leave alone. -/

namespace Sys2Proof.Machine

@[simp] theorem andThen_next (s : State) (f : State → Host.Outcome State Fault Refusal) : andThen (.next s) f = f s := rfl

@[simp] theorem andThen_fault (r : Fault) (f : State → Host.Outcome State Fault Refusal) : andThen (.fault r) f = .fault r := rfl

@[simp] theorem andThen_refused (r : Refusal) (f : State → Host.Outcome State Fault Refusal) :
    andThen (.refused r) f = .refused r := rfl

/-- A sequence answers a next state exactly when both parts do. -/
theorem andThen_eq_next (o : Host.Outcome State Fault Refusal) (f : State → Host.Outcome State Fault Refusal) (t : State) :
    andThen o f = .next t ↔ ∃ s, o = .next s ∧ f s = .next t := by
  cases o <;> simp

/-- Sequencing associates. -/
theorem andThen_assoc (o : Host.Outcome State Fault Refusal) (f g : State → Host.Outcome State Fault Refusal) :
    andThen (andThen o f) g = andThen o fun s => andThen (f s) g := by
  cases o <;> rfl

/-- A sequence ends in `next`, and leaves the outcome as it is. -/
theorem andThen_pure (o : Host.Outcome State Fault Refusal) : (andThen o fun s => .next s) = o := by
  cases o <;> rfl

@[simp] theorem State.drawRaw_snd (s : State) :
    s.drawRaw.2 = s.withEnv { s.env with adc := s.env.adc.tail, draws := s.env.draws + 1 } := rfl

/-- A raw sample is at most `RAW_MAX` (40_voltage_sampler R105). -/
theorem State.drawRaw_le (s : State) : s.drawRaw.1 ≤ s.cfg.rawMax := Nat.min_le_right _ _

@[simp] theorem State.drawRawGate_snd (s : State) :
    s.drawRawGate.2 = s.withEnv { s.env with gateAdc := s.env.gateAdc.tail, draws := s.env.draws + 1 } := rfl

@[simp] theorem State.drawNow_snd (s : State) :
    s.drawNow.2 = s.withEnv { s.env with clock := s.env.clock.tail, lastNow := s.drawNow.1, draws := s.env.draws + 1 } := rfl

theorem laterOf_left (x y : Instant) : x ≤ laterOf x y := by
  unfold laterOf
  split
  · assumption
  · exact BitVec.le_refl x

theorem laterOf_of_le (x y : Instant) (h : x ≤ y) : laterOf x y = y := if_pos h

/-- The clock never runs backwards (10_state R44). -/
theorem State.drawNow_le (s : State) : s.env.lastNow ≤ s.drawNow.1 := laterOf_left _ _

/-- The transport's moves for a list of frames: all of them are `2N` bytes and the newest is pending, or
there is no move (20_memory R76, 60_exceptions R213). -/
theorem deliverAll_eq (fs : List Frame) (s : State) :
    deliverAll fs s = if ∀ f ∈ fs, f.length = s.frameSize then .next { s with pending := fs.getLast?.or s.pending }
      else .refused .frameLength := by
  induction fs generalizing s with
  | nil => rfl
  | cons f fs ih =>
    have hc : (∀ g ∈ f :: fs, g.length = s.frameSize) ↔ f.length = s.frameSize ∧ ∀ g ∈ fs, g.length = s.frameSize :=
      List.forall_mem_cons
    rw [deliverAll, State.transportDeliver]
    by_cases hf : f.length = s.frameSize
    · rw [if_pos hf, andThen_next, ih, show (s.hold f).frameSize = s.frameSize from rfl]
      by_cases hs : ∀ g ∈ fs, g.length = s.frameSize
      · rw [if_pos hs, if_pos (hc.mpr ⟨hf, hs⟩)]
        cases fs with
        | nil => rfl
        | cons g gs =>
          rw [List.getLast?_cons_cons, List.getLast?_eq_some_getLast (by simp)]
          rfl
      · rw [if_neg hs, if_neg fun h => hs (hc.mp h).2]
    · rw [if_neg hf, if_neg fun h => hf (hc.mp h).1]
      rfl

/-- What the deliveries up to a fetch leave. -/
theorem State.takeDeliveries_eq (s : State) :
    s.takeDeliveries = if ∀ f ∈ s.handedOver, f.length = s.frameSize then
        .next { s with pending := s.handedOver.getLast?, env := s.envAfterFetch }
      else .refused .frameLength := by
  have e : s.handedOver.getLast?.or s.pending = s.handedOver.getLast? := by
    unfold State.handedOver
    cases s.pending <;> cases s.delivered <;> simp [List.getLast?_eq_some_getLast]
  rw [State.takeDeliveries, deliverAll_eq, e]
  split <;> rfl

/-- A sub channel's level of one pin. -/
theorem SubChan.withLevel_eq (c : SubChan) (x : Side) (l : Int) :
    c.withLevel x l = match x with | .a => { c with levelA := l } | .b => { c with levelB := l } := by
  cases x <;> rfl

section
variable (s : State)

-- applyMain
@[simp] theorem State.applyMain_cfg (m : Nat) (d1 : Int) : (s.applyMain m d1).cfg = s.cfg := rfl
@[simp] theorem State.applyMain_phase (m : Nat) (d1 : Int) : (s.applyMain m d1).phase = s.phase := rfl
@[simp] theorem State.applyMain_stage (m : Nat) (d1 : Int) : (s.applyMain m d1).stage = s.stage := rfl
@[simp] theorem State.applyMain_cycleN (m : Nat) (d1 : Int) : (s.applyMain m d1).cycleN = s.cycleN := rfl
@[simp] theorem State.applyMain_subs (m : Nat) (d1 : Int) : (s.applyMain m d1).subs = s.subs := rfl
@[simp] theorem State.applyMain_vNow (m : Nat) (d1 : Int) : (s.applyMain m d1).vNow = s.vNow := rfl
@[simp] theorem State.applyMain_vNowWritten (m : Nat) (d1 : Int) : (s.applyMain m d1).vNowWritten = s.vNowWritten := rfl
@[simp] theorem State.applyMain_emaState (m : Nat) (d1 : Int) : (s.applyMain m d1).emaState = s.emaState := rfl
@[simp] theorem State.applyMain_vFilt (m : Nat) (d1 : Int) : (s.applyMain m d1).vFilt = s.vFilt := rfl
@[simp] theorem State.applyMain_vFiltWritten (m : Nat) (d1 : Int) : (s.applyMain m d1).vFiltWritten = s.vFiltWritten := rfl
@[simp] theorem State.applyMain_fRange (m : Nat) (d1 : Int) : (s.applyMain m d1).fRange = s.fRange := rfl
@[simp] theorem State.applyMain_powerEn (m : Nat) (d1 : Int) : (s.applyMain m d1).powerEn = s.powerEn := rfl
@[simp] theorem State.applyMain_frame (m : Nat) (d1 : Int) : (s.applyMain m d1).frame = s.frame := rfl
@[simp] theorem State.applyMain_pending (m : Nat) (d1 : Int) : (s.applyMain m d1).pending = s.pending := rfl
@[simp] theorem State.applyMain_duty (m : Nat) (d1 : Int) : (s.applyMain m d1).duty = s.duty := rfl
@[simp] theorem State.applyMain_slewRet (m : Nat) (d1 : Int) : (s.applyMain m d1).slewRet = s.slewRet := rfl
@[simp] theorem State.applyMain_env (m : Nat) (d1 : Int) : (s.applyMain m d1).env = s.env := rfl

-- handOver
@[simp] theorem State.handOver_cfg (k : Nat) (c : SubChan) (d1 : Int) : (s.handOver k c d1).cfg = s.cfg := by
  unfold State.handOver; split <;> rfl
@[simp] theorem State.handOver_phase (k : Nat) (c : SubChan) (d1 : Int) : (s.handOver k c d1).phase = s.phase := by
  unfold State.handOver; split <;> rfl
@[simp] theorem State.handOver_stage (k : Nat) (c : SubChan) (d1 : Int) : (s.handOver k c d1).stage = s.stage := by
  unfold State.handOver; split <;> rfl
@[simp] theorem State.handOver_cycleN (k : Nat) (c : SubChan) (d1 : Int) : (s.handOver k c d1).cycleN = s.cycleN := by
  unfold State.handOver; split <;> rfl
@[simp] theorem State.handOver_mains (k : Nat) (c : SubChan) (d1 : Int) : (s.handOver k c d1).mains = s.mains := by
  unfold State.handOver; split <;> rfl
@[simp] theorem State.handOver_vNow (k : Nat) (c : SubChan) (d1 : Int) : (s.handOver k c d1).vNow = s.vNow := by
  unfold State.handOver; split <;> rfl
@[simp] theorem State.handOver_vNowWritten (k : Nat) (c : SubChan) (d1 : Int) : (s.handOver k c d1).vNowWritten = s.vNowWritten := by
  unfold State.handOver; split <;> rfl
@[simp] theorem State.handOver_emaState (k : Nat) (c : SubChan) (d1 : Int) : (s.handOver k c d1).emaState = s.emaState := by
  unfold State.handOver; split <;> rfl
@[simp] theorem State.handOver_vFilt (k : Nat) (c : SubChan) (d1 : Int) : (s.handOver k c d1).vFilt = s.vFilt := by
  unfold State.handOver; split <;> rfl
@[simp] theorem State.handOver_vFiltWritten (k : Nat) (c : SubChan) (d1 : Int) : (s.handOver k c d1).vFiltWritten = s.vFiltWritten := by
  unfold State.handOver; split <;> rfl
@[simp] theorem State.handOver_fRange (k : Nat) (c : SubChan) (d1 : Int) : (s.handOver k c d1).fRange = s.fRange := by
  unfold State.handOver; split <;> rfl
@[simp] theorem State.handOver_powerEn (k : Nat) (c : SubChan) (d1 : Int) : (s.handOver k c d1).powerEn = s.powerEn := by
  unfold State.handOver; split <;> rfl
@[simp] theorem State.handOver_frame (k : Nat) (c : SubChan) (d1 : Int) : (s.handOver k c d1).frame = s.frame := by
  unfold State.handOver; split <;> rfl
@[simp] theorem State.handOver_pending (k : Nat) (c : SubChan) (d1 : Int) : (s.handOver k c d1).pending = s.pending := by
  unfold State.handOver; split <;> rfl
@[simp] theorem State.handOver_duty (k : Nat) (c : SubChan) (d1 : Int) : (s.handOver k c d1).duty = s.duty := by
  unfold State.handOver; split <;> rfl
@[simp] theorem State.handOver_slewRet (k : Nat) (c : SubChan) (d1 : Int) : (s.handOver k c d1).slewRet = s.slewRet := by
  unfold State.handOver; split <;> rfl
@[simp] theorem State.handOver_env (k : Nat) (c : SubChan) (d1 : Int) : (s.handOver k c d1).env = s.env := by
  unfold State.handOver; split <;> rfl

-- applySub
@[simp] theorem State.applySub_cfg (k : Nat) (c : SubChan) (d1 : Int) : (s.applySub k c d1).cfg = s.cfg := by
  simp [State.applySub]
@[simp] theorem State.applySub_phase (k : Nat) (c : SubChan) (d1 : Int) : (s.applySub k c d1).phase = s.phase := by
  simp [State.applySub]
@[simp] theorem State.applySub_stage (k : Nat) (c : SubChan) (d1 : Int) : (s.applySub k c d1).stage = s.stage := by
  simp [State.applySub]
@[simp] theorem State.applySub_cycleN (k : Nat) (c : SubChan) (d1 : Int) : (s.applySub k c d1).cycleN = s.cycleN := by
  simp [State.applySub]
@[simp] theorem State.applySub_mains (k : Nat) (c : SubChan) (d1 : Int) : (s.applySub k c d1).mains = s.mains := by
  simp [State.applySub]
@[simp] theorem State.applySub_vNow (k : Nat) (c : SubChan) (d1 : Int) : (s.applySub k c d1).vNow = s.vNow := by
  simp [State.applySub]
@[simp] theorem State.applySub_vNowWritten (k : Nat) (c : SubChan) (d1 : Int) : (s.applySub k c d1).vNowWritten = s.vNowWritten := by
  simp [State.applySub]
@[simp] theorem State.applySub_emaState (k : Nat) (c : SubChan) (d1 : Int) : (s.applySub k c d1).emaState = s.emaState := by
  simp [State.applySub]
@[simp] theorem State.applySub_vFilt (k : Nat) (c : SubChan) (d1 : Int) : (s.applySub k c d1).vFilt = s.vFilt := by
  simp [State.applySub]
@[simp] theorem State.applySub_vFiltWritten (k : Nat) (c : SubChan) (d1 : Int) : (s.applySub k c d1).vFiltWritten = s.vFiltWritten := by
  simp [State.applySub]
@[simp] theorem State.applySub_fRange (k : Nat) (c : SubChan) (d1 : Int) : (s.applySub k c d1).fRange = s.fRange := by
  simp [State.applySub]
@[simp] theorem State.applySub_powerEn (k : Nat) (c : SubChan) (d1 : Int) : (s.applySub k c d1).powerEn = s.powerEn := by
  simp [State.applySub]
@[simp] theorem State.applySub_frame (k : Nat) (c : SubChan) (d1 : Int) : (s.applySub k c d1).frame = s.frame := by
  simp [State.applySub]
@[simp] theorem State.applySub_pending (k : Nat) (c : SubChan) (d1 : Int) : (s.applySub k c d1).pending = s.pending := by
  simp [State.applySub]
@[simp] theorem State.applySub_duty (k : Nat) (c : SubChan) (d1 : Int) : (s.applySub k c d1).duty = s.duty := by
  simp [State.applySub]
@[simp] theorem State.applySub_slewRet (k : Nat) (c : SubChan) (d1 : Int) : (s.applySub k c d1).slewRet = s.slewRet := by
  simp [State.applySub]
@[simp] theorem State.applySub_env (k : Nat) (c : SubChan) (d1 : Int) : (s.applySub k c d1).env = s.env := by
  simp [State.applySub]

-- writePattern
@[simp] theorem State.writePattern_cfg (k : Nat) (on : Bool) : (s.writePattern k on).cfg = s.cfg := by
  cases on <;> rfl
@[simp] theorem State.writePattern_phase (k : Nat) (on : Bool) : (s.writePattern k on).phase = s.phase := by
  cases on <;> rfl
@[simp] theorem State.writePattern_stage (k : Nat) (on : Bool) : (s.writePattern k on).stage = s.stage := by
  cases on <;> rfl
@[simp] theorem State.writePattern_cycleN (k : Nat) (on : Bool) : (s.writePattern k on).cycleN = s.cycleN := by
  cases on <;> rfl
@[simp] theorem State.writePattern_mains (k : Nat) (on : Bool) : (s.writePattern k on).mains = s.mains := by
  cases on <;> rfl
@[simp] theorem State.writePattern_vNow (k : Nat) (on : Bool) : (s.writePattern k on).vNow = s.vNow := by
  cases on <;> rfl
@[simp] theorem State.writePattern_vNowWritten (k : Nat) (on : Bool) : (s.writePattern k on).vNowWritten = s.vNowWritten := by
  cases on <;> rfl
@[simp] theorem State.writePattern_emaState (k : Nat) (on : Bool) : (s.writePattern k on).emaState = s.emaState := by
  cases on <;> rfl
@[simp] theorem State.writePattern_vFilt (k : Nat) (on : Bool) : (s.writePattern k on).vFilt = s.vFilt := by
  cases on <;> rfl
@[simp] theorem State.writePattern_vFiltWritten (k : Nat) (on : Bool) : (s.writePattern k on).vFiltWritten = s.vFiltWritten := by
  cases on <;> rfl
@[simp] theorem State.writePattern_fRange (k : Nat) (on : Bool) : (s.writePattern k on).fRange = s.fRange := by
  cases on <;> rfl
@[simp] theorem State.writePattern_powerEn (k : Nat) (on : Bool) : (s.writePattern k on).powerEn = s.powerEn := by
  cases on <;> rfl
@[simp] theorem State.writePattern_frame (k : Nat) (on : Bool) : (s.writePattern k on).frame = s.frame := by
  cases on <;> rfl
@[simp] theorem State.writePattern_pending (k : Nat) (on : Bool) : (s.writePattern k on).pending = s.pending := by
  cases on <;> rfl
@[simp] theorem State.writePattern_duty (k : Nat) (on : Bool) : (s.writePattern k on).duty = s.duty := by
  cases on <;> rfl
@[simp] theorem State.writePattern_slewRet (k : Nat) (on : Bool) : (s.writePattern k on).slewRet = s.slewRet := by
  cases on <;> rfl
@[simp] theorem State.writePattern_env (k : Nat) (on : Bool) : (s.writePattern k on).env = s.env := by
  cases on <;> rfl

-- writeBothRest
@[simp] theorem State.writeBothRest_cfg (k : Nat) : (s.writeBothRest k).cfg = s.cfg := rfl
@[simp] theorem State.writeBothRest_phase (k : Nat) : (s.writeBothRest k).phase = s.phase := rfl
@[simp] theorem State.writeBothRest_stage (k : Nat) : (s.writeBothRest k).stage = s.stage := rfl
@[simp] theorem State.writeBothRest_cycleN (k : Nat) : (s.writeBothRest k).cycleN = s.cycleN := rfl
@[simp] theorem State.writeBothRest_mains (k : Nat) : (s.writeBothRest k).mains = s.mains := rfl
@[simp] theorem State.writeBothRest_vNow (k : Nat) : (s.writeBothRest k).vNow = s.vNow := rfl
@[simp] theorem State.writeBothRest_vNowWritten (k : Nat) : (s.writeBothRest k).vNowWritten = s.vNowWritten := rfl
@[simp] theorem State.writeBothRest_emaState (k : Nat) : (s.writeBothRest k).emaState = s.emaState := rfl
@[simp] theorem State.writeBothRest_vFilt (k : Nat) : (s.writeBothRest k).vFilt = s.vFilt := rfl
@[simp] theorem State.writeBothRest_vFiltWritten (k : Nat) : (s.writeBothRest k).vFiltWritten = s.vFiltWritten := rfl
@[simp] theorem State.writeBothRest_fRange (k : Nat) : (s.writeBothRest k).fRange = s.fRange := rfl
@[simp] theorem State.writeBothRest_powerEn (k : Nat) : (s.writeBothRest k).powerEn = s.powerEn := rfl
@[simp] theorem State.writeBothRest_frame (k : Nat) : (s.writeBothRest k).frame = s.frame := rfl
@[simp] theorem State.writeBothRest_pending (k : Nat) : (s.writeBothRest k).pending = s.pending := rfl
@[simp] theorem State.writeBothRest_duty (k : Nat) : (s.writeBothRest k).duty = s.duty := rfl
@[simp] theorem State.writeBothRest_slewRet (k : Nat) : (s.writeBothRest k).slewRet = s.slewRet := rfl
@[simp] theorem State.writeBothRest_env (k : Nat) : (s.writeBothRest k).env = s.env := rfl

-- refreshSolenoid
@[simp] theorem State.refreshSolenoid_cfg (k : Nat) (on : Bool) : (s.refreshSolenoid k on).cfg = s.cfg := by
  unfold State.refreshSolenoid; split <;> simp
@[simp] theorem State.refreshSolenoid_phase (k : Nat) (on : Bool) : (s.refreshSolenoid k on).phase = s.phase := by
  unfold State.refreshSolenoid; split <;> simp
@[simp] theorem State.refreshSolenoid_stage (k : Nat) (on : Bool) : (s.refreshSolenoid k on).stage = s.stage := by
  unfold State.refreshSolenoid; split <;> simp
@[simp] theorem State.refreshSolenoid_cycleN (k : Nat) (on : Bool) : (s.refreshSolenoid k on).cycleN = s.cycleN := by
  unfold State.refreshSolenoid; split <;> simp
@[simp] theorem State.refreshSolenoid_mains (k : Nat) (on : Bool) : (s.refreshSolenoid k on).mains = s.mains := by
  unfold State.refreshSolenoid; split <;> simp
@[simp] theorem State.refreshSolenoid_vNow (k : Nat) (on : Bool) : (s.refreshSolenoid k on).vNow = s.vNow := by
  unfold State.refreshSolenoid; split <;> simp
@[simp] theorem State.refreshSolenoid_vNowWritten (k : Nat) (on : Bool) : (s.refreshSolenoid k on).vNowWritten = s.vNowWritten := by
  unfold State.refreshSolenoid; split <;> simp
@[simp] theorem State.refreshSolenoid_emaState (k : Nat) (on : Bool) : (s.refreshSolenoid k on).emaState = s.emaState := by
  unfold State.refreshSolenoid; split <;> simp
@[simp] theorem State.refreshSolenoid_vFilt (k : Nat) (on : Bool) : (s.refreshSolenoid k on).vFilt = s.vFilt := by
  unfold State.refreshSolenoid; split <;> simp
@[simp] theorem State.refreshSolenoid_vFiltWritten (k : Nat) (on : Bool) : (s.refreshSolenoid k on).vFiltWritten = s.vFiltWritten := by
  unfold State.refreshSolenoid; split <;> simp
@[simp] theorem State.refreshSolenoid_fRange (k : Nat) (on : Bool) : (s.refreshSolenoid k on).fRange = s.fRange := by
  unfold State.refreshSolenoid; split <;> simp
@[simp] theorem State.refreshSolenoid_powerEn (k : Nat) (on : Bool) : (s.refreshSolenoid k on).powerEn = s.powerEn := by
  unfold State.refreshSolenoid; split <;> simp
@[simp] theorem State.refreshSolenoid_frame (k : Nat) (on : Bool) : (s.refreshSolenoid k on).frame = s.frame := by
  unfold State.refreshSolenoid; split <;> simp
@[simp] theorem State.refreshSolenoid_pending (k : Nat) (on : Bool) : (s.refreshSolenoid k on).pending = s.pending := by
  unfold State.refreshSolenoid; split <;> simp
@[simp] theorem State.refreshSolenoid_duty (k : Nat) (on : Bool) : (s.refreshSolenoid k on).duty = s.duty := by
  unfold State.refreshSolenoid; split <;> simp
@[simp] theorem State.refreshSolenoid_slewRet (k : Nat) (on : Bool) : (s.refreshSolenoid k on).slewRet = s.slewRet := by
  unfold State.refreshSolenoid; split <;> simp
@[simp] theorem State.refreshSolenoid_env (k : Nat) (on : Bool) : (s.refreshSolenoid k on).env = s.env := by
  unfold State.refreshSolenoid; split <;> simp

-- solenoidAt
@[simp] theorem State.solenoidAt_cfg (k : Nat) (c : SubChan) (on : Bool) (now : Instant) : (s.solenoidAt k c on now).cfg = s.cfg := by
  unfold State.solenoidAt; split <;> [rfl; split <;> simp]
@[simp] theorem State.solenoidAt_phase (k : Nat) (c : SubChan) (on : Bool) (now : Instant) : (s.solenoidAt k c on now).phase = s.phase := by
  unfold State.solenoidAt; split <;> [rfl; split <;> simp]
@[simp] theorem State.solenoidAt_stage (k : Nat) (c : SubChan) (on : Bool) (now : Instant) : (s.solenoidAt k c on now).stage = s.stage := by
  unfold State.solenoidAt; split <;> [rfl; split <;> simp]
@[simp] theorem State.solenoidAt_cycleN (k : Nat) (c : SubChan) (on : Bool) (now : Instant) : (s.solenoidAt k c on now).cycleN = s.cycleN := by
  unfold State.solenoidAt; split <;> [rfl; split <;> simp]
@[simp] theorem State.solenoidAt_mains (k : Nat) (c : SubChan) (on : Bool) (now : Instant) : (s.solenoidAt k c on now).mains = s.mains := by
  unfold State.solenoidAt; split <;> [rfl; split <;> simp]
@[simp] theorem State.solenoidAt_vNow (k : Nat) (c : SubChan) (on : Bool) (now : Instant) : (s.solenoidAt k c on now).vNow = s.vNow := by
  unfold State.solenoidAt; split <;> [rfl; split <;> simp]
@[simp] theorem State.solenoidAt_vNowWritten (k : Nat) (c : SubChan) (on : Bool) (now : Instant) : (s.solenoidAt k c on now).vNowWritten = s.vNowWritten := by
  unfold State.solenoidAt; split <;> [rfl; split <;> simp]
@[simp] theorem State.solenoidAt_emaState (k : Nat) (c : SubChan) (on : Bool) (now : Instant) : (s.solenoidAt k c on now).emaState = s.emaState := by
  unfold State.solenoidAt; split <;> [rfl; split <;> simp]
@[simp] theorem State.solenoidAt_vFilt (k : Nat) (c : SubChan) (on : Bool) (now : Instant) : (s.solenoidAt k c on now).vFilt = s.vFilt := by
  unfold State.solenoidAt; split <;> [rfl; split <;> simp]
@[simp] theorem State.solenoidAt_vFiltWritten (k : Nat) (c : SubChan) (on : Bool) (now : Instant) : (s.solenoidAt k c on now).vFiltWritten = s.vFiltWritten := by
  unfold State.solenoidAt; split <;> [rfl; split <;> simp]
@[simp] theorem State.solenoidAt_fRange (k : Nat) (c : SubChan) (on : Bool) (now : Instant) : (s.solenoidAt k c on now).fRange = s.fRange := by
  unfold State.solenoidAt; split <;> [rfl; split <;> simp]
@[simp] theorem State.solenoidAt_powerEn (k : Nat) (c : SubChan) (on : Bool) (now : Instant) : (s.solenoidAt k c on now).powerEn = s.powerEn := by
  unfold State.solenoidAt; split <;> [rfl; split <;> simp]
@[simp] theorem State.solenoidAt_frame (k : Nat) (c : SubChan) (on : Bool) (now : Instant) : (s.solenoidAt k c on now).frame = s.frame := by
  unfold State.solenoidAt; split <;> [rfl; split <;> simp]
@[simp] theorem State.solenoidAt_pending (k : Nat) (c : SubChan) (on : Bool) (now : Instant) : (s.solenoidAt k c on now).pending = s.pending := by
  unfold State.solenoidAt; split <;> [rfl; split <;> simp]
@[simp] theorem State.solenoidAt_duty (k : Nat) (c : SubChan) (on : Bool) (now : Instant) : (s.solenoidAt k c on now).duty = s.duty := by
  unfold State.solenoidAt; split <;> [rfl; split <;> simp]
@[simp] theorem State.solenoidAt_slewRet (k : Nat) (c : SubChan) (on : Bool) (now : Instant) : (s.solenoidAt k c on now).slewRet = s.slewRet := by
  unfold State.solenoidAt; split <;> [rfl; split <;> simp]
@[simp] theorem State.solenoidAt_env (k : Nat) (c : SubChan) (on : Bool) (now : Instant) : (s.solenoidAt k c on now).env = s.env := by
  unfold State.solenoidAt; split <;> [rfl; split <;> simp]

end

/-- What MAIN_DRIVE can do (42_main_channel R130): nothing but the flag, or the writes for a limited duty
that differs. -/
theorem execMainDrive_next (m : Nat) (d : Int) (s t : State) (h : execMainDrive m d s = .next t) :
    ∃ c, s.mains[m]? = some c
      ∧ ((slewLimit d c.prev s.cfg.dutyDiffMax = c.prev ∧ t = s.checkRange d)
        ∨ (slewLimit d c.prev s.cfg.dutyDiffMax ≠ c.prev
            ∧ t = (s.checkRange d).applyMain m (slewLimit d c.prev s.cfg.dutyDiffMax))) := by
  unfold execMainDrive at h
  split at h
  · cases h
  · rename_i c hc
    refine ⟨c, hc, ?_⟩
    dsimp only at h
    split at h
    · exact .inl ⟨‹_›, by cases h; rfl⟩
    · exact .inr ⟨‹_›, by cases h; rfl⟩

/-- MAIN_DRIVE answers a next state on every channel of the machine. -/
theorem execMainDrive_completes (m : Nat) (d : Int) (s : State) (h : m < s.mains.length) : ∃ t, execMainDrive m d s = .next t := by
  unfold execMainDrive
  rw [List.getElem?_eq_getElem h]
  dsimp only
  split <;> exact ⟨_, rfl⟩

/-- What SUB_MOTOR can do (43_sub_channel R151). -/
theorem execSubMotor_next (k : Nat) (d : Int) (s t : State) (h : execSubMotor k d s = .next t) :
    ∃ c, s.subs[k]? = some c
      ∧ ((slewLimit d c.prev s.cfg.dutyDiffMax = c.prev ∧ t = s.checkRange d)
        ∨ (slewLimit d c.prev s.cfg.dutyDiffMax ≠ c.prev
            ∧ t = (s.checkRange d).applySub k c (slewLimit d c.prev s.cfg.dutyDiffMax))) := by
  unfold execSubMotor at h
  split at h
  · cases h
  · rename_i c hc
    refine ⟨c, hc, ?_⟩
    dsimp only at h
    split at h
    · exact .inl ⟨‹_›, by cases h; rfl⟩
    · exact .inr ⟨‹_›, by cases h; rfl⟩

/-- SUB_MOTOR answers a next state on every channel of the machine. -/
theorem execSubMotor_completes (k : Nat) (d : Int) (s : State) (h : k < s.subs.length) : ∃ t, execSubMotor k d s = .next t := by
  unfold execSubMotor
  rw [List.getElem?_eq_getElem h]
  dsimp only
  split <;> exact ⟨_, rfl⟩

/-- What SOLENOID_SWITCH can do (43_sub_channel R153). -/
theorem solenoidSwitch_next (k : Nat) (on : Bool) (s t : State) (h : solenoidSwitch k on s = .next t) :
    ∃ c, s.subs[k]? = some c ∧ t = s.drawNow.2.solenoidAt k c on s.drawNow.1 := by
  unfold solenoidSwitch at h
  split at h
  · cases h
  · rename_i c hc
    exact ⟨c, hc, by cases h; rfl⟩

/-- SOLENOID_SWITCH answers a next state on every channel of the machine. -/
theorem solenoidSwitch_completes (k : Nat) (on : Bool) (s : State) (h : k < s.subs.length) :
    ∃ t, solenoidSwitch k on s = .next t := by
  unfold solenoidSwitch
  rw [List.getElem?_eq_getElem h]
  exact ⟨_, rfl⟩

/-- FETCH_FRAME: a frame of another length among those handed over is refused; otherwise the newest, if
any, is taken (44_decoder_and_cycle R181, 20_memory R76, 60_exceptions R213). -/
theorem execFetchFrame_eq (s : State) :
    execFetchFrame s = if ∀ f ∈ s.handedOver, f.length = s.frameSize then
        .next (match s.handedOver.getLast? with
          | none => s.withEnv s.envAfterFetch
          | some f => { s with frame := memOfBytes 0 f, pending := none, env := s.envAfterFetch })
      else .refused .frameLength := by
  rw [execFetchFrame, State.takeDeliveries_eq]
  split
  · rw [andThen_next, State.fetchPending]
    cases h : s.handedOver.getLast? with
    | none =>
      have hp : s.pending = none := by
        have := List.getLast?_eq_none_iff.mp h
        simp only [State.handedOver, List.append_eq_nil_iff, Option.toList_eq_nil_iff] at this
        exact this.1
      simp only [State.withEnv]
      rw [← hp]
    | some f => rfl
  · rfl

/-- What FETCH_FRAME can do (44_decoder_and_cycle R181, 20_memory R76). -/
theorem execFetchFrame_next (s t : State) (h : execFetchFrame s = .next t) :
    (∀ f ∈ s.handedOver, f.length = s.frameSize)
      ∧ ((s.handedOver.getLast? = none ∧ t = s.withEnv s.envAfterFetch)
        ∨ ∃ f, s.handedOver.getLast? = some f
          ∧ t = { s with frame := memOfBytes 0 f, pending := none, env := s.envAfterFetch }) := by
  rw [execFetchFrame_eq] at h
  split at h
  · refine ⟨‹_›, ?_⟩
    split at h
    · exact .inl ⟨‹_›, by cases h; rfl⟩
    · exact .inr ⟨_, ‹_›, by cases h; rfl⟩
  · cases h

/-- DECODE always answers a next state (44_decoder_and_cycle R180). -/
theorem execDecode_eq (s : State) :
    execDecode s = .next { s with
      duty := (List.range s.cfg.numWords).map fun i =>
        sext16 (wordOfBytes (memGet s.frame (2 * i)) (memGet s.frame (2 * i + 1))) } := by
  rw [execDecode, State.frameDuties_eq]

end Sys2Proof.Machine
end

