-- ==== Sys2Proof/Laws/Channels.lean ====
section
/-! SUPPORT. The channel writes as replacements of one entry of a channel file: one equation per composite
write, and the fields of a file that a write leaves alone. -/

namespace Sys2Proof.Machine

/-- Modifying an entry that is there replaces it. -/
theorem modify_eq_set {α : Type} (l : List α) (i : Nat) (x : α) (f : α → α) (h : l[i]? = some x) :
    l.modify i f = l.set i (f x) := by
  apply List.ext_getElem?
  intro j
  rw [List.getElem?_modify, List.getElem?_set]
  by_cases hj : i = j
  · subst hj
    obtain ⟨hl, hx⟩ := List.getElem?_eq_some_iff.mp h
    simp [hl, hx]
  · simp [hj]

/-- The entry that was replaced. -/
theorem getElem?_set_at {α : Type} (l : List α) (i : Nat) (x y : α) (h : l[i]? = some x) : (l.set i y)[i]? = some y := by
  obtain ⟨hl, -⟩ := List.getElem?_eq_some_iff.mp h
  simp [hl]

/-- A field that an update of an entry keeps is kept in the whole list. -/
theorem map_modify {α β : Type} (l : List α) (i : Nat) (f : α → α) (g : α → β) (h : ∀ x, g (f x) = g x) :
    (l.modify i f).map g = l.map g := by
  apply List.ext_getElem?
  intro j
  simp only [List.getElem?_map, List.getElem?_modify]
  cases l[j]? <;> simp
  split <;> simp [h]

/-- The writes of a moving MAIN_DRIVE (42_main_channel R130). -/
theorem State.applyMain_eq (s : State) (m : Nat) (d1 : Int) (c : MainChan) (hc : s.mains[m]? = some c) :
    s.applyMain m d1 = { s with
      mains := s.mains.set m ⟨d1, mainLevel s.cfg d1 s.vNow, dirOf d1⟩
      events := s.events ++ [.pinWrite (.main m) (mainLevel s.cfg d1 s.vNow), .dirWrite m (dirOf d1)] } := by
  simp only [State.applyMain, State.mainPin, State.mainDir, State.setMainPrev, State.emit]
  rw [modify_eq_set _ _ _ _ hc, modify_eq_set _ _ _ _ (getElem?_set_at _ _ _ _ hc),
    modify_eq_set _ _ _ _ (getElem?_set_at _ _ _ _ (getElem?_set_at _ _ _ _ hc))]
  simp

/-- The pin write of a sub channel. -/
theorem State.subPin_eq (s : State) (k : Nat) (x : Side) (l : Int) (c : SubChan) (hc : s.subs[k]? = some c) :
    s.subPin k x l = { s with subs := s.subs.set k (c.withLevel x l), events := s.events ++ [.pinWrite (.sub k x) l] } := by
  simp only [State.subPin, State.emit]
  rw [modify_eq_set _ _ _ _ hc]

/-- The channel that a moving SUB_MOTOR leaves (43_sub_channel R151). -/
def movedSub (cfg : Config) (v : Volts) (c : SubChan) (d1 : Int) : SubChan :=
  let base := if reverses c.prev d1 then { c.withLevel c.active (restLevel cfg) with active := sideOf d1 } else c
  { base.withLevel (activeAfter c d1) (subLevel cfg d1 v) with prev := d1 }

/-- The write events of a moving SUB_MOTOR (43_sub_channel R151). -/
def movedSubEvents (cfg : Config) (v : Volts) (k : Nat) (c : SubChan) (d1 : Int) : List Event :=
  (if reverses c.prev d1 then [.pinWrite (.sub k c.active) (restLevel cfg)] else [])
    ++ [.pinWrite (.sub k (activeAfter c d1)) (subLevel cfg d1 v)]

/-- The writes of a moving SUB_MOTOR (43_sub_channel R151). -/
theorem State.applySub_eq (s : State) (k : Nat) (c : SubChan) (d1 : Int) (hc : s.subs[k]? = some c) :
    s.applySub k c d1 = { s with
      subs := s.subs.set k (movedSub s.cfg s.vNow c d1)
      events := s.events ++ movedSubEvents s.cfg s.vNow k c d1 } := by
  unfold State.applySub State.handOver movedSub movedSubEvents
  by_cases hr : reverses c.prev d1 = true
  · simp only [hr, if_true]
    rw [State.subPin_eq s k _ _ c hc]
    simp only [State.setSubActive]
    rw [modify_eq_set _ _ _ _ (getElem?_set_at _ _ _ _ hc)]
    simp only [State.subPin, State.emit, State.setSubPrev]
    rw [modify_eq_set _ _ _ _ (getElem?_set_at _ _ _ _ (getElem?_set_at _ _ _ _ hc)),
      modify_eq_set _ _ _ _ (getElem?_set_at _ _ _ _ (getElem?_set_at _ _ _ _ (getElem?_set_at _ _ _ _ hc)))]
    simp
  · simp only [hr]
    rw [if_neg (by simp), if_neg (by simp), State.subPin_eq s k _ _ c hc]
    simp only [State.setSubPrev]
    rw [modify_eq_set _ _ _ _ (getElem?_set_at _ _ _ _ hc)]
    simp

/-- Two pin writes of a sub channel, one after the other. -/
theorem State.twoPins_eq (s : State) (k : Nat) (x y : Side) (l r : Int) (c : SubChan) (hc : s.subs[k]? = some c) :
    (s.subPin k x l).subPin k y r = { s with
      subs := s.subs.set k ((c.withLevel x l).withLevel y r)
      events := s.events ++ [.pinWrite (.sub k x) l, .pinWrite (.sub k y) r] } := by
  rw [State.subPin_eq s k x l c hc, State.subPin_eq _ k y r (c.withLevel x l) (getElem?_set_at _ _ _ _ hc)]
  simp

/-- The pins of a sub channel under a solenoid pattern (43_sub_channel R159). -/
def patternOf (cfg : Config) (c : SubChan) (on : Bool) : SubChan :=
  if on then { c with levelA := restLevel cfg, levelB := 0 } else { c with levelA := 0, levelB := restLevel cfg }

/-- The write events of a solenoid pattern: the pin that goes to rest first (43_sub_channel R159). -/
def patternEvents (cfg : Config) (k : Nat) (on : Bool) : List Event :=
  if on then [.pinWrite (.sub k .a) (restLevel cfg), .pinWrite (.sub k .b) 0]
  else [.pinWrite (.sub k .b) (restLevel cfg), .pinWrite (.sub k .a) 0]

/-- The writes of a solenoid pattern (43_sub_channel R159). -/
theorem State.writePattern_eq (s : State) (k : Nat) (on : Bool) (c : SubChan) (hc : s.subs[k]? = some c) :
    s.writePattern k on = { s with
      subs := s.subs.set k (patternOf s.cfg c on), events := s.events ++ patternEvents s.cfg k on } := by
  cases on
  · exact State.twoPins_eq s k .b .a (restLevel s.cfg) 0 c hc
  · exact State.twoPins_eq s k .a .b (restLevel s.cfg) 0 c hc

/-- The writes of both pins at rest (43_sub_channel R159). -/
theorem State.writeBothRest_eq (s : State) (k : Nat) (c : SubChan) (hc : s.subs[k]? = some c) :
    s.writeBothRest k = { s with
      subs := s.subs.set k { c with levelA := restLevel s.cfg, levelB := restLevel s.cfg }
      events := s.events ++ [.pinWrite (.sub k .a) (restLevel s.cfg), .pinWrite (.sub k .b) (restLevel s.cfg)] } :=
  State.twoPins_eq s k .a .b (restLevel s.cfg) (restLevel s.cfg) c hc

/-- The channel that a same-state request leaves, and its write events (43_sub_channel R153). -/
def refreshed (cfg : Config) (k : Nat) (c : SubChan) (on : Bool) : SubChan × List Event :=
  match cfg.solRefresh with
  | .statePattern => (patternOf cfg c on, patternEvents cfg k on)
  | .bothRest =>
    ({ c with levelA := restLevel cfg, levelB := restLevel cfg },
      [.pinWrite (.sub k .a) (restLevel cfg), .pinWrite (.sub k .b) (restLevel cfg)])

/-- The channel that SOLENOID_SWITCH leaves, and its write events (43_sub_channel R153). -/
def switched (cfg : Config) (k : Nat) (c : SubChan) (on : Bool) (now : Instant) : SubChan × List Event :=
  if dwellDrops cfg c now then (c, [])
  else if c.sol = solTarget on then refreshed cfg k c on
  else ({ patternOf cfg c on with sol := solTarget on, t0 := now }, patternEvents cfg k on)

/-- The writes of SOLENOID_SWITCH (43_sub_channel R153). -/
theorem State.solenoidAt_eq (s : State) (k : Nat) (c : SubChan) (on : Bool) (now : Instant) (hc : s.subs[k]? = some c) :
    s.solenoidAt k c on now = { s with
      subs := s.subs.set k (switched s.cfg k c on now).1, events := s.events ++ (switched s.cfg k c on now).2 } := by
  unfold State.solenoidAt switched
  split
  · obtain ⟨hl, hx⟩ := List.getElem?_eq_some_iff.mp hc
    simp [← hx]
  · split
    · unfold State.refreshSolenoid refreshed
      cases s.cfg.solRefresh
      · exact State.writePattern_eq s k on c hc
      · exact State.writeBothRest_eq s k c hc
    · rw [State.writePattern_eq s k on c hc]
      simp only [State.setSolenoid]
      rw [modify_eq_set _ _ _ _ (getElem?_set_at _ _ _ _ hc)]
      simp

end Sys2Proof.Machine
end

