-- ==== Sys2Proof/Laws/Decode.lean ====
section
/-! SUPPORT. The bounds that a legal configuration gives (00_scope R8), and the laws of words, bytes and
slots that the encoding claims rest on (30_encoding R81 to R86). -/

namespace Sys2Proof

/-- Legality as its bounds. -/
theorem Config.legal_iff (c : Config) : c.legal = true ↔
    1 ≤ c.dutyMax ∧ c.dutyMax ≤ 32767 ∧ 0 ≤ c.dutyDiffMax ∧ 1 ≤ c.pwmResolution ∧ 0 < c.vMin ∧ 0 < c.vRefMax
      ∧ 0 < c.adcFullScale ∧ 0 ≤ c.emaAlpha ∧ c.emaAlpha ≤ 1 ∧ 1 ≤ c.filtPeriodK ∧ 1 ≤ c.numWords
      ∧ 0 < c.vScaleGate ∧ 0 < c.cyclePeriodUs := by
  simp only [Config.legal, Bool.and_eq_true, decide_eq_true_eq, and_assoc]

/-- The magnitude of an integer, for `omega` (simp writes it as an absolute value). -/
theorem natAbs_le_iff (x y : Int) : (x.natAbs : Int) ≤ y ↔ x ≤ y ∧ -x ≤ y := by omega

/-- A decoded duty is a 16-bit one (00_scope R9). -/
theorem sext16_inWordRange (w : Word16) : inWordRange (sext16 w) := by
  have low := BitVec.le_toInt w
  have high := BitVec.toInt_lt (x := w)
  simp [sext16, inWordRange] at *; omega

/-- Decoding the word of a 16-bit duty gives the duty (00_scope R9). -/
theorem sext16_enc16 (v : Int) (h : inWordRange v) : sext16 (enc16 v) = v := by
  simp only [sext16, enc16, BitVec.toInt_ofInt]
  simp only [inWordRange] at h
  simp only [Int.bmod]; omega

/-- The word of a decoded duty is the word (00_scope R9). -/
theorem enc16_sext16 (w : Word16) : enc16 (sext16 w) = w := by
  simp [enc16, sext16]

/-- A word is its two bytes (20_memory R61). -/
theorem wordOfBytes_bytes (w : Word16) : wordOfBytes (lowByte w) (highByte w) = w := by
  simp only [wordOfBytes, lowByte, highByte]
  apply BitVec.eq_of_getLsbD_eq
  intro i hi
  simp only [BitVec.getLsbD_append, BitVec.getLsbD_extractLsb']
  split
  · simp; omega
  · have : i - 8 < 8 := by omega
    simp [this]; congr 1; omega

theorem lowByte_wordOfBytes (lo hi : Byte) : lowByte (wordOfBytes lo hi) = lo := by
  apply BitVec.eq_of_getLsbD_eq
  intro i h
  simp only [lowByte, wordOfBytes, BitVec.getLsbD_extractLsb', BitVec.getLsbD_append]
  simp [h]

theorem highByte_wordOfBytes (lo hi : Byte) : highByte (wordOfBytes lo hi) = hi := by
  apply BitVec.eq_of_getLsbD_eq
  intro i h
  simp only [highByte, wordOfBytes, BitVec.getLsbD_extractLsb', BitVec.getLsbD_append]
  simp [h]

/-- The first slots are the main channels' (30_encoding R82). -/
theorem slotAt_main (c : Config) (m : Nat) (h : m < c.numMain) : slotAt c m = some (.main m) := by
  simp [slotAt, h]

/-- The slots after them are the sub channels' (30_encoding R82). -/
theorem slotAt_sub (c : Config) (k : Nat) (h : k < c.numSub) : slotAt c (c.numMain + k) = some (.sub k) := by
  simp [slotAt, Config.numWords, h]

/-- What a slot of the frame is (30_encoding R82). -/
theorem slotAt_cases (c : Config) (i : Nat) (h : i < c.numWords) :
    (i < c.numMain ∧ slotAt c i = some (.main i))
      ∨ ∃ k, k < c.numSub ∧ i = c.numMain + k ∧ slotAt c i = some (.sub k) := by
  by_cases hm : i < c.numMain
  · exact .inl ⟨hm, slotAt_main c i hm⟩
  · have : i - c.numMain < c.numSub := by simp only [Config.numWords] at h; omega
    exact .inr ⟨i - c.numMain, this, by omega, by simp [slotAt, hm, h]⟩

/-- Decoding the two bytes of a word at a slot selects the operation of its duty. -/
theorem decode_bytesOf (c : Config) (i : Nat) (w : Word16) (rest : List Byte) (slot : Slot)
    (h : slotAt c i = some slot) : decode c i (bytesOf w ++ rest) = .ok (select c slot (sext16 w), rest) := by
  simp only [decode, bytesOf, List.cons_append, List.nil_append, wordOfBytes_bytes, h]

/-- What a sub-slot duty selects (30_encoding R84). -/
theorem selectSub_cases (c : Config) (k : Nat) (d : Int) :
    (d = c.dutyMax + 1 ∧ 0 < d ∧ selectSub c k d = .subSolOn k)
      ∨ (isSentinel c d ∧ ¬ 0 < d ∧ selectSub c k d = .subSolOff k)
      ∨ (¬ isSentinel c d ∧ selectSub c k d = .subMotor k d) := by
  unfold selectSub
  split
  · exact .inl ⟨by simp only [isSentinel] at *; omega, by simp_all, rfl⟩
  · split
    · rename_i hon hoff
      exact .inr (.inl ⟨hoff, fun h => hon ⟨hoff, h⟩, rfl⟩)
    · exact .inr (.inr ⟨‹_›, rfl⟩)

end Sys2Proof
end

