-- ==== Sys2Proof/Laws/Effects.lean ====
section
/-! SUPPORT. What one operation can do, said once for all operations: the effects, each with its guard,
and the step in terms of them. Later proofs take an effect apart and never unfold a meaning. -/

namespace Sys2Proof.Machine

/-- An operation that runs SUB_MOTOR's rule on channel `k` with duty `d` (43_sub_channel R151, R156). -/
def runsMotor (cfg : Config) (k : Nat) (d : Int) (i : Instr) : Prop :=
  i = .subMotor k d ∨ (i = .subDispatch k d ∧ ¬ isSentinel cfg d)

/-- An operation that runs SOLENOID_SWITCH's rule on channel `k` (43_sub_channel R153 to R156). -/
def runsSolenoid (cfg : Config) (k : Nat) (on : Bool) (i : Instr) : Prop :=
  i = .solenoidSwitch k on ∨ (i = .subSolOn k ∧ on = true) ∨ (i = .subSolOff k ∧ on = false)
    ∨ ∃ d, i = .subDispatch k d ∧ isSentinel cfg d ∧ on = decide (0 < d)

/-- What an operation other than CONTROL_CYCLE can do to a state. -/
inductive Effect : Instr → State → State → Prop
  | mainFast (m : Nat) (d : Int) (s : State) (c : MainChan) (hc : s.mains[m]? = some c)
      (h : slewLimit d c.prev s.cfg.dutyDiffMax = c.prev) : Effect (.mainDrive m d) s (s.checkRange d)
  | mainMove (m : Nat) (d : Int) (s : State) (c : MainChan) (hc : s.mains[m]? = some c)
      (h : slewLimit d c.prev s.cfg.dutyDiffMax ≠ c.prev) :
      Effect (.mainDrive m d) s ((s.checkRange d).applyMain m (slewLimit d c.prev s.cfg.dutyDiffMax))
  | subFast (k : Nat) (d : Int) (i : Instr) (s : State) (c : SubChan) (hi : runsMotor s.cfg k d i)
      (hc : s.subs[k]? = some c) (h : slewLimit d c.prev s.cfg.dutyDiffMax = c.prev) : Effect i s (s.checkRange d)
  | subMove (k : Nat) (d : Int) (i : Instr) (s : State) (c : SubChan) (hi : runsMotor s.cfg k d i)
      (hc : s.subs[k]? = some c) (h : slewLimit d c.prev s.cfg.dutyDiffMax ≠ c.prev) :
      Effect i s ((s.checkRange d).applySub k c (slewLimit d c.prev s.cfg.dutyDiffMax))
  | solenoid (k : Nat) (on : Bool) (i : Instr) (s : State) (c : SubChan) (hi : runsSolenoid s.cfg k on i)
      (hc : s.subs[k]? = some c) : Effect i s (s.drawNow.2.solenoidAt k c on s.drawNow.1)
  | configureGate (s : State) (h : s.cfg.gateEn = true) : Effect .configure s (s.configureOutputs.setPhase .gate)
  | configureLoop (s : State) (h : s.cfg.gateEn = false) :
      Effect .configure s (s.configureOutputs.setPhase .loop).assertPower
  | gatePass (s : State) (h : gatePasses s.cfg s.drawRawGate.1 = true) :
      Effect .startupGate s (s.drawRawGate.2.assertPower.setPhase .loop)
  | gateWait (s : State) (h : gatePasses s.cfg s.drawRawGate.1 = false) : Effect .startupGate s s.drawRawGate.2
  | power (s : State) : Effect .powerEnable s s.assertPower
  | sample (s : State) : Effect .vsample s (s.drawRaw.2.setVNow (floorVolts s.cfg (rawVolts s.cfg s.drawRaw.1)))
  | filter (s : State) (e r : Volts) (hr : s.cfg.vMin ≤ r) : Effect .vsampleFilt s (s.drawRaw.2.setFilter e r)
  | fetchNone (s : State) (h : s.handedOver.getLast? = none) : Effect .fetchFrame s (s.withEnv s.envAfterFetch)
  | fetchNew (s : State) (f : Frame) (h : s.handedOver.getLast? = some f)
      (hl : ∀ g ∈ s.handedOver, g.length = s.frameSize) :
      Effect .fetchFrame s { s with frame := memOfBytes 0 f, pending := none, env := s.envAfterFetch }
  | decode (s : State) (ds : List Int) (h : s.frameDuties = some ds) : Effect .decode s { s with duty := ds }
  | slew (req prev limit : Int) (s : State) :
      Effect (.slewLimit req prev limit) s { s with slewRet := slewLimit req prev limit }
  | sleep (s : State) : Effect .sleep s s

/-- Running SUB_MOTOR's rule has one of its two effects. -/
theorem subMotor_effect (k : Nat) (d : Int) (i : Instr) (s t : State) (hi : runsMotor s.cfg k d i)
    (h : execSubMotor k d s = .next t) : Effect i s t := by
  obtain ⟨c, hc, ⟨he, rfl⟩ | ⟨he, rfl⟩⟩ := execSubMotor_next k d s t h
  · exact .subFast k d i s c hi hc he
  · exact .subMove k d i s c hi hc he

/-- Running SOLENOID_SWITCH's rule has its effect. -/
theorem solenoid_effect (k : Nat) (on : Bool) (i : Instr) (s t : State) (hi : runsSolenoid s.cfg k on i)
    (h : solenoidSwitch k on s = .next t) : Effect i s t := by
  obtain ⟨c, hc, rfl⟩ := solenoidSwitch_next k on s t h
  exact .solenoid k on i s c hi hc

/-- Every operation but CONTROL_CYCLE does one of the effects. -/
theorem exec_effect (i : Instr) (s t : State) (hi : i ≠ .controlCycle) (h : exec i s = .next t) : Effect i s t := by
  cases i with
  | subSolOn k => exact solenoid_effect k true _ s t (.inr (.inl ⟨rfl, rfl⟩)) h
  | subSolOff k => exact solenoid_effect k false _ s t (.inr (.inr (.inl ⟨rfl, rfl⟩))) h
  | subMotor k d => exact subMotor_effect k d _ s t (.inl rfl) h
  | mainDrive m d =>
    obtain ⟨c, hc, ⟨he, rfl⟩ | ⟨he, rfl⟩⟩ := execMainDrive_next m d s t h
    · exact .mainFast m d s c hc he
    · exact .mainMove m d s c hc he
  | configure =>
    simp only [exec, execConfigure, execPowerEnable] at h
    split at h <;> cases h
    · exact .configureGate s ‹_›
    · exact .configureLoop s (by simpa using ‹¬ s.cfg.gateEn = true›)
  | startupGate =>
    have e : exec .startupGate s = if gatePasses s.cfg s.drawRawGate.1 = true then
        .next (s.drawRawGate.2.assertPower.setPhase .loop) else .next s.drawRawGate.2 := rfl
    rw [e] at h
    split at h
    · cases h; exact .gatePass s ‹_›
    · cases h; exact .gateWait s (by simpa using ‹¬ gatePasses s.cfg s.drawRawGate.1 = true›)
  | powerEnable => cases h; exact .power s
  | vsample => cases h; exact .sample s
  | vsampleFilt => cases h; exact .filter s _ _ (le_max_right _ _)
  | fetchFrame =>
    obtain ⟨hl, ⟨hn, rfl⟩ | ⟨f, hn, rfl⟩⟩ := execFetchFrame_next s t h
    · exact .fetchNone s hn
    · exact .fetchNew s f hn hl
  | decode =>
    simp only [exec, execDecode] at h
    split at h
    · cases h; exact .decode s _ ‹_›
    · cases h
  | slewLimit req prev limit => cases h; exact .slew req prev limit s
  | solenoidSwitch k on => exact solenoid_effect k on _ s t (.inl rfl) h
  | subDispatch k d =>
    simp only [exec, execSubDispatch] at h
    split at h
    · rename_i hd
      exact solenoid_effect k true _ s t (.inr (.inr (.inr ⟨d, rfl, hd.1, by simp [hd.2]⟩))) h
    · split at h
      · rename_i h1 h2
        have h3 : ¬ 0 < d := fun h => h1 ⟨h2, h⟩
        exact solenoid_effect k false _ s t (.inr (.inr (.inr ⟨d, rfl, h2, by simp [h3]⟩))) h
      · exact subMotor_effect k d _ s t (.inr ⟨rfl, ‹_›⟩) h
  | sleep => cases h; exact .sleep s
  | controlCycle => exact absurd rfl hi

/-- What the sequencer issues in the loop. -/
theorem issued_loop (s : State) (h : s.phase = .loop) : issued s = match s.stage with
    | .vsample => .ok .vsample
    | .vsampleFilt => .ok .vsampleFilt
    | .fetch => .ok .fetchFrame
    | .decode => .ok .decode
    | .slot i => slotOperation s i
    | .sleep => .ok .sleep := by
  cases s; cases h; rfl

/-- How the sequencer moves on in the loop. -/
theorem advance_loop (s t : State) (h : s.phase = .loop) : advance s t = match s.stage with
    | .sleep => { t.countCycle with stage := .vsample }
    | st => { t with stage := nextStage s.cfg s.cycleN st } := by
  cases s; cases h; rfl

/-- Outside the loop the sequencer adds nothing. -/
theorem advance_start (s t : State) (h : s.phase ≠ .loop) : advance s t = t := by
  unfold advance
  split <;> [rfl; rfl; exact absurd ‹_› h]

/-- The operation of a decoded slot is the one that its word selects. -/
theorem slotOperation_eq (s : State) (k : Nat) (d : Int) (slot : Slot) (hs : slotAt s.cfg k = some slot)
    (hd : s.duty[k]? = some d) : slotOperation s k = .ok (select s.cfg slot d) := by
  simp only [slotOperation, hs, hd]

/-- The sequencer issues no CONTROL_CYCLE as one operation: it issues its stages (log 8). -/
theorem issued_ne_controlCycle (s : State) (i : Instr) (h : issued s = .ok i) : i ≠ .controlCycle := by
  rintro rfl
  unfold issued at h
  split at h
  · cases h
  · cases h
  · split at h <;> try cases h
    unfold slotOperation at h
    split at h
    · simp only [Except.ok.injEq] at h
      unfold select at h
      split at h
      · cases h
      · unfold selectSub at h
        split at h
        · cases h
        · split at h <;> cases h
    · cases h

/-- What a step can do: the effect of the operation issued, and then the sequencer moves on. -/
theorem step_effect (s t : State) (h : step s = .next t) :
    s.cfg.legal = true ∧ ∃ i u, issued s = .ok i ∧ exec i s = .next u ∧ Effect i s u ∧ t = advance s u := by
  unfold step at h
  split at h
  · rename_i hl
    refine ⟨hl, ?_⟩
    split at h
    · rename_i i hi
      rw [andThen_eq_next] at h
      obtain ⟨u, hu, hv⟩ := h
      cases hv
      exact ⟨i, u, hi, hu, exec_effect i s u (issued_ne_controlCycle s i hi) hu, rfl⟩
    · cases h
  · cases h

/-- A step in terms of the operation issued. -/
theorem step_eq (s : State) (i : Instr) (hl : s.cfg.legal = true) (hi : issued s = .ok i) :
    step s = andThen (exec i s) fun t => .next (advance s t) := by
  rw [step, if_pos hl, hi]

/-- The parts of CONTROL_CYCLE: a relation that holds of every effect and of the count, and composes,
holds of the whole cycle. -/
theorem controlCycle_rel (R : State → State → Prop) (refl : ∀ s, R s s) (trans : ∀ s t u, R s t → R t u → R s u)
    (effect : ∀ i s t, Effect i s t → R s t) (count : ∀ s : State, R s s.countCycle) (s t : State)
    (h : execControlCycle s = .next t) : R s t := by
  have mains : ∀ (ms : List Nat) (s t : State), driveMains ms s = .next t → R s t := by
    intro ms
    induction ms with
    | nil => intro s t h; cases h; exact refl s
    | cons m ms ih =>
      intro s t h
      simp only [driveMains] at h
      split at h
      · cases h
      · rename_i d _
        rw [andThen_eq_next] at h
        obtain ⟨u, hu, hv⟩ := h
        exact trans _ _ _ (effect _ _ _ (exec_effect (.mainDrive m d) s u nofun hu)) (ih _ _ hv)
  have subs : ∀ (ks : List Nat) (s t : State), dispatchSubs ks s = .next t → R s t := by
    intro ks
    induction ks with
    | nil => intro s t h; cases h; exact refl s
    | cons k ks ih =>
      intro s t h
      simp only [dispatchSubs] at h
      split at h
      · cases h
      · rename_i d _
        rw [andThen_eq_next] at h
        obtain ⟨u, hu, hv⟩ := h
        exact trans _ _ _ (effect _ _ _ (exec_effect (.subDispatch k d) s u nofun hu)) (ih _ _ hv)
  unfold execControlCycle at h
  simp only [andThen_eq_next] at h
  obtain ⟨s1, h1, s2, h2, s3, h3, s4, h4, s5, h5, s6, h6, s7, h7, h8⟩ := h
  cases h7
  cases h8
  have e2 : R s1 s2 := by
    unfold filterStage at h2
    split at h2
    · exact effect _ _ _ (exec_effect .vsampleFilt s1 s2 nofun h2)
    · cases h2; exact refl _
  exact trans _ _ _ (effect _ _ _ (exec_effect .vsample s s1 nofun h1)) <| trans _ _ _ e2 <|
    trans _ _ _ (effect _ _ _ (exec_effect .fetchFrame s2 s3 nofun h3)) <|
    trans _ _ _ (effect _ _ _ (exec_effect .decode s3 s4 nofun h4)) <|
    trans _ _ _ (mains _ _ _ h5) <| trans _ _ _ (subs _ _ _ h6) (count _)

/-- A relation that holds of every effect and of the count, and composes, holds of every operation. -/
theorem exec_rel (R : State → State → Prop) (refl : ∀ s, R s s) (trans : ∀ s t u, R s t → R t u → R s u)
    (effect : ∀ i s t, Effect i s t → R s t) (count : ∀ s : State, R s s.countCycle) (i : Instr) (s t : State)
    (h : exec i s = .next t) : R s t := by
  by_cases hi : i = .controlCycle
  · subst hi
    exact controlCycle_rel R refl trans effect count s t h
  · exact effect i s t (exec_effect i s t hi h)

end Sys2Proof.Machine
end

