-- ==== Sys2Proof/Laws/Operands.lean ====
section
/-! SUPPORT. The laws of the pure computations: the slew limit, rounding, the clamp and the share of a
duty. -/

namespace Sys2Proof.Machine

/-- The three things that the slew limit can give (41_slew_limiter R120). -/
theorem slewLimit_cases (req prev limit : Int) (h : 0 ≤ limit) :
    (((req - prev).natAbs : Int) ≤ limit ∧ slewLimit req prev limit = req)
      ∨ (limit < req - prev ∧ slewLimit req prev limit = prev + limit)
      ∨ (limit < prev - req ∧ slewLimit req prev limit = prev - limit) := by
  unfold slewLimit
  split
  · left; subst req; exact ⟨by simpa using h, rfl⟩
  · dsimp only
    split
    · rcases lt_trichotomy (req - prev) 0 with h1 | h1 | h1
      · right; right; rw [Int.sign_eq_neg_one_of_neg h1]; exact ⟨by omega, by ring⟩
      · omega
      · right; left; rw [Int.sign_eq_one_of_pos h1]; exact ⟨by omega, by ring⟩
    · left; exact ⟨by omega, rfl⟩

/-- A larger number does not round lower. -/
theorem roundAway_mono {x y : ℚ} (h : x ≤ y) : roundAway x ≤ roundAway y := by
  unfold roundAway
  split <;> split
  · exact Int.floor_le_floor (by linarith)
  · linarith
  · rename_i a b
    have : 0 ≤ ⌊-x + 1 / 2⌋ := Int.floor_nonneg.mpr (by push Not at a; linarith)
    have : 0 ≤ ⌊y + 1 / 2⌋ := Int.floor_nonneg.mpr (by linarith)
    omega
  · have : ⌊-y + 1 / 2⌋ ≤ ⌊-x + 1 / 2⌋ := Int.floor_le_floor (by linarith)
    omega

/-- An integer rounds to itself. -/
theorem roundAway_int (n : Int) : roundAway (n : ℚ) = n := by
  unfold roundAway
  split
  · rw [Int.floor_eq_iff]; constructor <;> linarith
  · have : ⌊-(n : ℚ) + 1 / 2⌋ = -n := by rw [Int.floor_eq_iff]; push_cast; constructor <;> linarith
    omega

/-- A clamped value is within its bounds. -/
theorem clamp_bounds (x lo hi : Int) (h : lo ≤ hi) : lo ≤ clamp x lo hi ∧ clamp x lo hi ≤ hi := by
  unfold clamp; omega

/-- The share of a duty at a floored voltage is not negative. -/
theorem dutyShare_nonneg (c : Config) (d : Int) (v : ℚ) (hl : c.legal = true) (hv : c.vMin ≤ v) : 0 ≤ dutyShare c d v := by
  have L := (c.legal_iff).mp hl
  have : (0 : ℚ) < c.dutyMax := by exact_mod_cast (by omega : 0 < c.dutyMax)
  unfold dutyShare
  have := L.2.2.2.2.1
  have : 0 < v := by linarith
  positivity

/-- The share of an in-range duty at a floored voltage is at most the whole period. -/
theorem dutyShare_le_one (c : Config) (d : Int) (v : ℚ) (hl : c.legal = true) (hv : c.vMin ≤ v)
    (hd : (d.natAbs : Int) ≤ c.dutyMax) : dutyShare c d v ≤ 1 := by
  have L := (c.legal_iff).mp hl
  have h1 : (0 : ℚ) < c.dutyMax := by exact_mod_cast (by omega : 0 < c.dutyMax)
  have h2 := L.2.2.2.2.1
  have h3 : 0 < v := by linarith
  have h4 : (d.natAbs : ℚ) ≤ c.dutyMax := by rw [← Int.cast_natCast]; exact Int.cast_le.mpr hd
  unfold dutyShare
  rw [div_le_one (by positivity)]
  exact mul_le_mul h4 hv h2.le h1.le

/-- A main level is a level (10_state R24). -/
theorem mainLevel_bounds (c : Config) (d : Int) (v : ℚ) (hl : c.legal = true) :
    0 ≤ mainLevel c d v ∧ mainLevel c d v ≤ c.pwmResolution :=
  clamp_bounds _ _ _ (by have := (c.legal_iff).mp hl; omega)

/-- A sub level is a level (10_state R28). -/
theorem subLevel_bounds (c : Config) (d : Int) (v : ℚ) (hl : c.legal = true) :
    0 ≤ subLevel c d v ∧ subLevel c d v ≤ c.pwmResolution :=
  clamp_bounds _ _ _ (by have := (c.legal_iff).mp hl; omega)

end Sys2Proof.Machine
end

