-- ==== Sys2Proof/Laws/PerInstr.lean ====
section
/-! SUPPORT. Facts about every instruction as syntax, one lemma per constructor. -/

namespace Sys2Proof.Laws

/-- A word that spells an instruction is two bytes (30_encoding R80), and it stands in the frame: an
encoded instruction has a slot, inside the frame if the instruction is well formed (30_encoding R82). -/
def TwoByteWords.Statement (i : Instr) : Prop :=
  ∀ (c : Config) (bs : List Byte), encode c i = some bs →
    bs.length = 2 ∧ ∃ k, slotIndex c i = some k ∧ (i.wf c = true → k < c.numWords)

theorem TwoByteWords.subSolOn (s : Nat) : TwoByteWords.Statement (.subSolOn s) := by
  intro c bs h
  obtain ⟨d, -, rfl⟩ := Option.map_eq_some_iff.mp h
  exact ⟨rfl, _, rfl, fun h => by simp [Instr.wf, Config.numWords] at *; omega⟩

theorem TwoByteWords.subSolOff (s : Nat) : TwoByteWords.Statement (.subSolOff s) := by
  intro c bs h
  obtain ⟨d, -, rfl⟩ := Option.map_eq_some_iff.mp h
  exact ⟨rfl, _, rfl, fun h => by simp [Instr.wf, Config.numWords] at *; omega⟩

theorem TwoByteWords.subMotor (s : Nat) (d : Int) : TwoByteWords.Statement (.subMotor s d) := by
  intro c bs h
  obtain ⟨d, -, rfl⟩ := Option.map_eq_some_iff.mp h
  exact ⟨rfl, _, rfl, fun h => by simp [Instr.wf, Config.numWords] at *; omega⟩

theorem TwoByteWords.mainDrive (m : Nat) (d : Int) : TwoByteWords.Statement (.mainDrive m d) := by
  intro c bs h
  obtain ⟨d, -, rfl⟩ := Option.map_eq_some_iff.mp h
  exact ⟨rfl, _, rfl, fun h => by simp [Instr.wf, Config.numWords] at *; omega⟩

theorem TwoByteWords.configure : TwoByteWords.Statement .configure := by
  intro c bs h
  simp [encode, encodeDuty] at h

theorem TwoByteWords.startupGate : TwoByteWords.Statement .startupGate := by
  intro c bs h
  simp [encode, encodeDuty] at h

theorem TwoByteWords.powerEnable : TwoByteWords.Statement .powerEnable := by
  intro c bs h
  simp [encode, encodeDuty] at h

theorem TwoByteWords.vsample : TwoByteWords.Statement .vsample := by
  intro c bs h
  simp [encode, encodeDuty] at h

theorem TwoByteWords.vsampleFilt : TwoByteWords.Statement .vsampleFilt := by
  intro c bs h
  simp [encode, encodeDuty] at h

theorem TwoByteWords.fetchFrame : TwoByteWords.Statement .fetchFrame := by
  intro c bs h
  simp [encode, encodeDuty] at h

theorem TwoByteWords.decode : TwoByteWords.Statement .decode := by
  intro c bs h
  simp [encode, encodeDuty] at h

theorem TwoByteWords.slewLimit (req prev step : Int) : TwoByteWords.Statement (.slewLimit req prev step) := by
  intro c bs h
  simp [encode, encodeDuty] at h

theorem TwoByteWords.solenoidSwitch (s : Nat) (targetOn : Bool) : TwoByteWords.Statement (.solenoidSwitch s targetOn) := by
  intro c bs h
  simp [encode, encodeDuty] at h

theorem TwoByteWords.subDispatch (s : Nat) (d : Int) : TwoByteWords.Statement (.subDispatch s d) := by
  intro c bs h
  simp [encode, encodeDuty] at h

theorem TwoByteWords.sleep : TwoByteWords.Statement .sleep := by
  intro c bs h
  simp [encode, encodeDuty] at h

theorem TwoByteWords.controlCycle : TwoByteWords.Statement .controlCycle := by
  intro c bs h
  simp [encode, encodeDuty] at h

end Sys2Proof.Laws
end

