-- ==== Sys2Proof/Tests/Slice0.lean ====
section
/-! SUPPORT. The model's own tests. Expected values are those of spec/95_test_vectors.md (the vector's name
stands at each test) or are worked out by hand from the rule named. The second part holds, for every
statement with hypotheses, states and operands that meet them. -/

namespace Sys2Proof.Tests

open Sys2Proof Sys2Proof.Machine

-- One theorem at a time: a kernel evaluation waits for every declaration before it.
set_option Elab.async false

-- ==== Helpers ====

/-- The next state of an outcome, if it is one. -/
def got : Host.Outcome State Fault Refusal → Option State
  | .next s => some s
  | .fault _ => none
  | .refused _ => none

theorem next_of_got (o : Host.Outcome State Fault Refusal) (h : (got o).isSome = true) : ∃ t, o = .next t := by
  cases o with
  | next t => exact ⟨t, rfl⟩
  | fault _ => simp [got] at h
  | refused _ => simp [got] at h

/-- REF of 95_test_vectors. -/
abbrev ref : Config := Config.reference
/-- FAST of 95_test_vectors. -/
def fast : Config := { ref with dutyDiffMax := 16000 }
/-- REF with another `DUTY_MAX`. -/
def withMax (n : Int) : Config := { ref with dutyMax := n }
/-- `V_MIN` of REF. -/
def v228 : Volts := mkRat 228 10
def v363 : Volts := mkRat 363 10

/-- A state with given registers of main channel 0. -/
def onMain (c : Config) (prev level : Int) (d : Dir) (v : Volts) : State :=
  { State.resetOf c with mains := [⟨prev, level, d⟩, MainChan.reset], vNow := v, vNowWritten := true }

/-- A state with given registers of sub channel 0. -/
def onSub (c : Config) (s : SubChan) (v : Volts) : State :=
  { State.resetOf c with subs := [s, SubChan.reset c], vNow := v, vNowWritten := true }

/-- A motor-mode sub channel. -/
def motor (prev : Int) (active : Side) (a b : Int) : SubChan := ⟨prev, active, a, b, .uninit, 0⟩

/-- A solenoid-mode sub channel. -/
def solenoid (st : SolState) (t0 : Nat) (a b : Int) : SubChan := ⟨0, .b, a, b, st, BitVec.ofNat 64 t0⟩

/-- A state whose next answers are given. -/
def answers (s : State) (adc : List Nat) (clock : List Nat) (frames : List (List Frame)) : State :=
  { s with env := { s.env with adc := adc, gateAdc := adc, clock := clock.map (BitVec.ofNat 64), deliveries := frames } }

def mainOf (o : Host.Outcome State Fault Refusal) : Option (Option MainChan × List Event × Bool) :=
  (got o).map fun t => (t.mains[0]?, t.events, t.fRange)

def subOf (o : Host.Outcome State Fault Refusal) : Option (Option SubChan × List Event × Bool) :=
  (got o).map fun t => (t.subs[0]?, t.events, t.fRange)

-- ==== WellFormed: an ill-formed term for each check ====

theorem test_wf_refuses_missing_sub_channel : (Instr.subSolOn 2).wf ref = false ∧ (Instr.subSolOff 2).wf ref = false
    ∧ (Instr.subMotor 2 0).wf ref = false ∧ (Instr.solenoidSwitch 2 true).wf ref = false
    ∧ (Instr.subDispatch 2 0).wf ref = false := by decide

theorem test_wf_refuses_missing_main_channel : (Instr.mainDrive 2 0).wf ref = false := by decide

theorem test_wf_refuses_wide_duty : (Instr.mainDrive 0 32768).wf ref = false ∧ (Instr.subMotor 0 (-32769)).wf ref = false
    ∧ (Instr.subDispatch 0 32768).wf ref = false ∧ (Instr.slewLimit 32768 0 70).wf ref = false
    ∧ (Instr.slewLimit 0 (-32769) 70).wf ref = false := by decide

theorem test_wf_refuses_sentinel_motor : (Instr.subMotor 0 32767).wf ref = false ∧ (Instr.subMotor 0 (-32767)).wf ref = false := by
  decide

theorem test_wf_refuses_negative_step : (Instr.slewLimit 0 0 (-1)).wf ref = false := by decide

theorem test_legal_reference : ref.legal = true := by decide +kernel

theorem test_legal_refuses_duty_bounds : (withMax 0).legal = false ∧ (withMax 32768).legal = false
    ∧ { ref with dutyDiffMax := -1 }.legal = false ∧ { ref with pwmResolution := 0 }.legal = false := by decide +kernel

theorem test_legal_refuses_voltage_bounds : { ref with vMin := 0 }.legal = false ∧ { ref with vRefMax := 0 }.legal = false
    ∧ { ref with adcFullScale := 0 }.legal = false ∧ { ref with emaAlpha := -1 }.legal = false
    ∧ { ref with emaAlpha := 2 }.legal = false ∧ { ref with vScaleGate := 0 }.legal = false := by decide +kernel

theorem test_legal_refuses_counts : { ref with filtPeriodK := 0 }.legal = false
    ∧ { ref with numMain := 0, numSub := 0 }.legal = false ∧ { ref with cyclePeriodUs := 0 }.legal = false := by decide +kernel

-- ==== Decoding: words written out from 30_encoding R83 to R85 ====

/-- V-RT-1 to V-RT-4. -/
theorem test_decode_sub_words : decode ref 2 [0xFF, 0x7F] = .ok (.subSolOn 0, []) ∧ decode ref 2 [0x01, 0x80] = .ok (.subSolOff 0, [])
    ∧ decode ref 3 [0xFE, 0x7F] = .ok (.subMotor 1 32766, []) ∧ decode ref 3 [0x00, 0x80] = .ok (.subMotor 1 (-32768), []) := by
  refine ⟨rfl, rfl, rfl, rfl⟩

/-- V-DEC-1, V-DEC-2, V-DEC-5: a main slot has no sentinel. -/
theorem test_decode_main_words : decode ref 0 [0x88, 0x13] = .ok (.mainDrive 0 5000, [])
    ∧ decode ref 1 [0x78, 0xEC] = .ok (.mainDrive 1 (-5000), []) ∧ decode ref 0 [0x01, 0x80] = .ok (.mainDrive 0 (-32767), []) := by
  refine ⟨rfl, rfl, rfl⟩

/-- V-RT-5, V-RT-6. -/
theorem test_decode_at_duty_max_32767 : decode (withMax 32767) 2 [0x00, 0x80] = .ok (.subSolOff 0, [])
    ∧ decode (withMax 32767) 2 [0xFF, 0x7F] = .ok (.subMotor 0 32767, []) ∧ encode (withMax 32767) (.subSolOn 0) = none := by
  refine ⟨rfl, rfl, rfl⟩

/-- V-RT-7, V-RT-8, V-RT-9. -/
theorem test_decode_at_duty_max_100 : decode (withMax 100) 2 [0x65, 0x00] = .ok (.subSolOn 0, [])
    ∧ decode (withMax 100) 2 [0x9B, 0xFF] = .ok (.subSolOff 0, []) ∧ decode (withMax 100) 2 [0x66, 0x00] = .ok (.subMotor 0 102, []) := by
  refine ⟨rfl, rfl, rfl⟩

/-- The encodings of 30_encoding R85's first row. -/
theorem test_encode_words : encode ref (.subSolOn 1) = some [0xFF, 0x7F] ∧ encode ref (.subSolOff 1) = some [0x01, 0x80]
    ∧ encode ref (.subMotor 0 (-5000)) = some [0x78, 0xEC] ∧ encode ref (.mainDrive 1 5000) = some [0x88, 0x13] := by decide

theorem test_decode_refuses_no_word : decode ref 0 [0x88] = .error .truncated ∧ decode ref 4 [0x88, 0x13] = .error .noSuchSlot := by
  refine ⟨rfl, rfl⟩

/-- The table's words, and a table row without bits. -/
theorem test_decodeTableWord : decodeTableWord 16 0x7FFF = some (.subSolOn 0) ∧ decodeTableWord 16 0x8001 = some (.subSolOff 0)
    ∧ decodeTableWord 16 0 = some (.subMotor 0 0) ∧ decodeTableWord 0 0 = none := by decide

-- ==== One operation each ====

/-- V-VS-3, V-VS-4, V-VS-6. -/
theorem test_vsample : (got (exec .vsample (answers State.reset [2572] [] []))).map (·.vNow) = some v228
    ∧ (got (exec .vsample (answers State.reset [2573] [] []))).map (·.vNow) = some (mkRat 311333 13650)
    ∧ (got (exec .vsample (answers State.reset [4095] [] []))).map (·.vNow) = some v363 := by decide +kernel

/-- V-VF-1, V-VF-4. -/
theorem test_vsampleFilt : (got (exec .vsampleFilt (answers State.reset [4095] [] []))).map (fun t => (t.emaState, t.vFilt))
      = some (mkRat 363 1000, v228)
    ∧ (got (exec .vsampleFilt (answers (State.resetOf { ref with emaClampState := true }) [4095] [] []))).map
        (fun t => (t.emaState, t.vFilt)) = some (v228, v228) := by decide +kernel

/-- V-SL-1, V-SL-5, V-SL-10, V-SL-13, V-SL-14. -/
theorem test_slewLimit : slewLimit 5000 0 70 = 70 ∧ slewLimit (-71) 0 70 = -70 ∧ slewLimit (-32768) 32767 70 = 32697
    ∧ slewLimit 100 29 70 = 99 ∧ slewLimit 5000 0 0 = 0 := by decide

/-- V-SL-2, V-SL-9, as the operation. -/
theorem test_slewLimit_operation : (got (exec (.slewLimit 0 5000 70) State.reset)).map (·.slewRet) = some 4930
    ∧ (got (exec (.slewLimit (-32768) (-32700) 70) State.reset)).map (·.slewRet) = some (-32768) := by decide +kernel

/-- The level table of 95_test_vectors 2.3: a plain row, the tie, a compensated row, a clamped row. -/
theorem test_levels : mainLevel ref 5000 v228 = 19 ∧ subLevel ref 5000 v228 = 106 ∧ mainLevel ref 16383 v228 = 63
    ∧ subLevel ref 16383 v228 = 63 ∧ mainLevel ref 32766 v363 = 79 ∧ subLevel ref 32766 v363 = 46
    ∧ mainLevel (withMax 100) 200 v228 = 125 ∧ subLevel (withMax 100) 200 v228 = 0 := by decide +kernel

/-- V-MAIN-4 (the fast path keeps the stale level), V-MAIN-7. -/
theorem test_mainDrive : mainOf (exec (.mainDrive 0 5000) (onMain ref 5000 19 .nonneg v363)) = some (some ⟨5000, 19, .nonneg⟩, [], false)
    ∧ mainOf (exec (.mainDrive 0 (-16000)) (onMain fast 0 0 .nonneg v228))
      = some (some ⟨-16000, 61, .neg⟩, [.pinWrite (.main 0) 61, .dirWrite 0 .neg], false) := by decide +kernel

/-- V-MAIN-8, V-MAIN-12. -/
theorem test_mainDrive_out_of_range : mainOf (exec (.mainDrive 0 0) (onMain fast (-5000) 19 .neg v228))
      = some (some ⟨0, 0, .nonneg⟩, [.pinWrite (.main 0) 0, .dirWrite 0 .nonneg], false)
    ∧ mainOf (exec (.mainDrive 0 200) (onMain (withMax 100) 190 125 .nonneg v228))
      = some (some ⟨200, 125, .nonneg⟩, [.pinWrite (.main 0) 125, .dirWrite 0 .nonneg], true) := by decide +kernel

/-- V-SUB-6 (reversal), V-SUB-2 (no reversal). -/
theorem test_subMotor : subOf (exec (.subMotor 0 (-5000)) (onSub fast (motor 5000 .a 106 125) v228))
      = some (some (motor (-5000) .b 125 106), [.pinWrite (.sub 0 .a) 125, .pinWrite (.sub 0 .b) 106], false)
    ∧ subOf (exec (.subMotor 0 5000) (onSub fast (motor 4000 .a 110 125) v228))
      = some (some (motor 5000 .a 106 125), [.pinWrite (.sub 0 .a) 106], false) := by decide +kernel

/-- V-SUB-3 (from zero to negative is a reversal), V-SUB-10. -/
theorem test_subMotor_edges : subOf (exec (.subMotor 0 (-5000)) (onSub fast (motor 0 .b 125 125) v228))
      = some (some (motor (-5000) .b 125 106), [.pinWrite (.sub 0 .b) 125, .pinWrite (.sub 0 .b) 106], false)
    ∧ subOf (exec (.subMotor 0 (-32768)) (onSub ref (motor (-32700) .b 125 0) v228))
      = some (some (motor (-32768) .b 125 0), [.pinWrite (.sub 0 .b) 0], true) := by decide +kernel

/-- V-SOL-1; V-SOL-8 (the first request gated). -/
theorem test_subSolOn : subOf (exec (.subSolOn 0) (answers (onSub ref (solenoid .uninit 0 125 125) v228) [] [1000] []))
      = some (some (solenoid .on 1000 125 0), [.pinWrite (.sub 0 .a) 125, .pinWrite (.sub 0 .b) 0], false)
    ∧ subOf (exec (.subSolOn 0)
        (answers (onSub { ref with solFirstGated := true } (solenoid .uninit 0 125 125) v228) [] [5000] []))
      = some (some (solenoid .uninit 0 125 125), [], false) := by decide +kernel

/-- V-SOL-3, V-SOL-4: the boundary of the dwell. -/
theorem test_subSolOff : subOf (exec (.subSolOff 0) (answers (onSub ref (solenoid .on 1000 125 0) v228) [] [11000] []))
      = some (some (solenoid .off 11000 0 125), [.pinWrite (.sub 0 .b) 125, .pinWrite (.sub 0 .a) 0], false)
    ∧ subOf (exec (.subSolOff 0) (answers (onSub ref (solenoid .on 1000 125 0) v228) [] [10999] []))
      = some (some (solenoid .on 1000 125 0), [], false) := by decide +kernel

/-- V-SOL-5, V-SOL-6: the refresh keeps the timer. -/
theorem test_solenoidSwitch : subOf (exec (.solenoidSwitch 0 false)
        (answers (onSub ref (solenoid .off 11000 0 125) v228) [] [25000] []))
      = some (some (solenoid .off 11000 0 125), [.pinWrite (.sub 0 .b) 125, .pinWrite (.sub 0 .a) 0], false)
    ∧ subOf (exec (.solenoidSwitch 0 false)
        (answers (onSub { ref with solRefresh := .bothRest } (solenoid .off 11000 0 125) v228) [] [25000] []))
      = some (some (solenoid .off 11000 125 125), [.pinWrite (.sub 0 .a) 125, .pinWrite (.sub 0 .b) 125], false) := by
  decide +kernel

/-- V-MIX-1, step 3, and its solenoid word. -/
theorem test_subDispatch : subOf (exec (.subDispatch 0 20000) (onSub fast ⟨16000, .a, 125, 0, .on, 0⟩ v228))
      = some (some ⟨20000, .a, 49, 0, .on, 0⟩, [.pinWrite (.sub 0 .a) 49], false)
    ∧ subOf (exec (.subDispatch 0 32767) (answers (onSub fast (motor 16000 .a 64 125) v228) [] [0] []))
      = some (some ⟨16000, .a, 125, 0, .on, 0⟩, [.pinWrite (.sub 0 .a) 125, .pinWrite (.sub 0 .b) 0], false) := by decide +kernel

/-- V-SEQ-1, V-SEQ-2. -/
theorem test_configure : (got (exec .configure State.reset)).map (fun t => (t.phase, t.powerEn, t.events.length)) = some (.loop, true, 9)
    ∧ (got (exec .configure (State.resetOf { ref with gateEn := true }))).map (fun t => (t.phase, t.powerEn, t.events.length))
      = some (.gate, false, 8) := by decide +kernel

/-- V-SEQ-5 (exactly `V_MIN` does not pass), V-SEQ-4. -/
theorem test_startupGate : (got (exec .startupGate
        (answers { State.resetOf { ref with gateEn := true, vScaleGate := mkRat 228 25720 } with phase := .gate } [2572] [] []))).map
        (fun t => (t.phase, t.powerEn)) = some (.gate, false)
    ∧ (got (exec .startupGate (answers { State.resetOf { ref with gateEn := true } with phase := .gate } [2573] [] []))).map
        (fun t => (t.phase, t.powerEn)) = some (.loop, true) := by decide +kernel

/-- V-SEQ-6, V-SEQ-7. -/
theorem test_fetchFrame : (got (exec .fetchFrame (answers { State.reset with frame := [(0, 0x46)] } [] [] [[]]))).map (·.frame)
      = some [(0, 0x46)]
    ∧ (got (exec .fetchFrame (answers State.reset [] [] [[List.replicate 8 1, [0, 0, 0, 0, 0xFF, 0x7F, 0, 0]]]))).map (·.frame)
      = some [(4, 0xFF), (5, 0x7F)] := by decide +kernel

/-- V-DEC-9. -/
theorem test_decode_operation : (got (exec .decode { State.reset with
      frame := memOfBytes 0 [0x88, 0x13, 0x78, 0xEC, 0xFF, 0x7F, 0x00, 0x80] })).map (·.duty)
    = some [5000, -5000, 32767, -32768] := by decide +kernel

/-- Program P1, cycle 0 (FAST): the write events, and the count. -/
theorem test_controlCycle : (got (exec .controlCycle (answers { State.resetOf fast with phase := .loop } [2572, 2572] []
      [[[0x80, 0xC1, 0x88, 0x13, 0, 0, 0, 0]]]))).map (fun t => (t.cycleN, t.events))
    = some (1, [.pinWrite (.main 0) 61, .dirWrite 0 .neg, .pinWrite (.main 1) 19, .dirWrite 1 .nonneg]) := by decide +kernel

/-- 44_decoder_and_cycle R185, R188. -/
theorem test_sleep_and_powerEnable : (got (exec .sleep State.reset)) = some State.reset
    ∧ (got (exec .powerEnable State.reset)).map (fun t => (t.powerEn, t.events)) = some (true, [.powerEnable]) := by decide +kernel

/-- The word that `withFetchWord` places is the one that the next step runs. -/
theorem test_withFetchWord : (got (step (State.reset.withFetchWord 16 0x1388))).map (fun t => (t.subs.map (·.prev), t.stage))
      = some ([70, 0], .slot 3)
    ∧ issued (State.reset.withFetchWord 16 0x8001) = .ok (.subSolOff 0) := ⟨by decide +kernel, rfl⟩

/-- 00_scope R8: an illegal configuration does not step and does not boot. -/
theorem test_illegal_configuration : step (State.resetOf (withMax 0)) = .refused .configRefused
    ∧ boot (withMax 0) = .refused .configRefused := by
  have h : (withMax 0).legal = false := by decide +kernel
  exact ⟨if_neg (by simp [State.resetOf, h]), if_neg (by simp [h])⟩

/-- 30_encoding R91, R92: a frame from its items; the assembler refuses a motor item on a sentinel. -/
theorem test_assembler : assembleFrame ref [.drive 0 5000, .solOff 1] = some [0x88, 0x13, 0, 0, 0, 0, 0x01, 0x80]
    ∧ assembleFrame ref [.motor 0 (-32767)] = none := by decide

-- ==== Witnesses: states and operands that meet the hypotheses of a statement ====

/-- In the loop at a stage, with a frame and its duties. -/
def inLoop (st : Stage) (frame : List Host.Cell) (duty : List Int) : State :=
  { State.reset with
    phase := .loop, stage := st, frame := frame, duty := duty, powerEn := true, vNowWritten := true }

/-- At the first sub slot of a frame that asks sub channel 0 for duty 50. -/
def atMotor : State := inLoop (.slot 2) [(4, 0x32)] [0, 0, 50, 0]
/-- At the first sub slot of a frame that asks sub channel 0 for solenoid state On, with clock answers. -/
def atSolenoid : State := answers (inLoop (.slot 2) [(4, 0xFF), (5, 0x7F)] [0, 0, 32767, 0]) [] [1000] []
/-- At a cycle boundary. -/
def atBoundary : State := inLoop .vsample [] []

/-- A channel file after reset is in range. -/
theorem reset_channels_ok (ln : Instant) :
    (∀ c ∈ List.replicate 2 MainChan.reset, c.Ok ref) ∧ ∀ c ∈ List.replicate 2 (SubChan.reset ref), c.Ok ref ln := by
  constructor <;> intro c hc <;> obtain rfl := List.eq_of_mem_replicate hc
  · exact ⟨by decide, by decide, by decide, by decide⟩
  · exact ⟨by decide, by decide, by decide, by decide, by decide, by decide, Nat.zero_le _, fun _ => rfl⟩

theorem test_witness_reset_inv : State.reset.Inv where
  cfgLegal := test_legal_reference
  mainFile := rfl
  subFile := rfl
  mainsOk := (reset_channels_ok 0).1
  subsOk := (reset_channels_ok 0).2
  frameOk := rfl
  vNowFloor := le_refl _
  vFiltFloor := le_refl _
  sampled := fun h => absurd rfl h
  slotInFrame := nofun
  dutiesDecoded := nofun
  powerInLoop := rfl
  gatePresent := nofun
  startStage := fun _ => rfl
  startDuties := fun _ _ hc => by obtain rfl := List.eq_of_mem_replicate hc; rfl

/-- A loop state is in the invariant when its frame is canonical and its slot is of a decoded frame. -/
theorem inLoop_inv (st : Stage) (frame : List Host.Cell) (duty : List Int) (adc clock : List Nat) (hf : memWf 8 frame = true)
    (hs : ∀ i, st = .slot i → i < 4 ∧ (inLoop st frame duty).frameDuties = some duty) :
    (answers (inLoop st frame duty) adc clock []).Inv where
  cfgLegal := test_legal_reference
  mainFile := rfl
  subFile := rfl
  mainsOk := (reset_channels_ok 0).1
  subsOk := (reset_channels_ok 0).2
  frameOk := hf
  vNowFloor := le_refl _
  vFiltFloor := le_refl _
  sampled := fun _ => rfl
  slotInFrame := fun i h => (hs i h).1
  dutiesDecoded := fun i h => (hs i h).2
  powerInLoop := rfl
  gatePresent := nofun
  startStage := fun h => absurd rfl h
  startDuties := nofun

theorem atMotor_inv : atMotor.Inv := inLoop_inv _ _ _ [] [] (by decide) fun _ h => by cases h; decide +kernel

theorem atSolenoid_inv : atSolenoid.Inv := inLoop_inv _ _ _ [] [1000] (by decide) fun _ h => by cases h; decide +kernel

theorem atBoundary_inv : atBoundary.Inv := inLoop_inv _ _ _ [] [] rfl nofun

/-- Each encoded kind, at the ends of its operands' ranges. -/
theorem test_witness_DecodeOfEncodeIsIdentity : ref.legal = true
    ∧ (∀ i ∈ [Instr.subSolOn 1, .subSolOff 0, .subMotor 1 (-32768), .subMotor 0 32766, .mainDrive 1 32767, .mainDrive 0 (-32768)],
        i.wf ref = true ∧ (encode ref i).isSome = true ∧ (slotIndex ref i).isSome = true) :=
  ⟨test_legal_reference, by decide⟩

theorem test_witness_EncodeOfDecodeGivesTheWordBack : ref.legal = true ∧ 0 < ref.numWords ∧ 3 < ref.numWords :=
  ⟨test_legal_reference, by decide, by decide⟩

theorem test_witness_MainSlotWordsSelectMainDrive : 0 < ref.numMain ∧ 1 < ref.numMain ∧ State.reset.cfg = ref
    ∧ ∃ t, exec (.mainDrive 1 ((0x80 : Byte) ++ (0x00 : Byte)).toInt) State.reset = .next t :=
  ⟨by decide, by decide, rfl, next_of_got _ (by decide +kernel)⟩

/-- A channel, and a word for each of the three cases. -/
theorem test_witness_SubSlotWordsSelectByMagnitude : 1 < ref.numSub
    ∧ ((0x7F : Byte) ++ (0xFF : Byte)).toInt = ref.dutyMax + 1 ∧ ((0x80 : Byte) ++ (0x01 : Byte)).toInt = -(ref.dutyMax + 1)
    ∧ ((0x80 : Byte) ++ (0x00 : Byte)).toInt.natAbs ≠ ref.dutyMax + 1 := by decide

/-- The least and the largest `DUTY_MAX`, and the largest that leaves `SUB_SOL_ON` a word. -/
theorem test_witness_SentinelWordsOfEveryDutyMax : (withMax 1).legal = true ∧ (withMax 32766).legal = true
    ∧ (withMax 32767).legal = true ∧ 1 < (withMax 1).numSub := by decide +kernel

theorem test_witness_DutyBytesRoundTrip : (-32768 : Int) ≤ 32767 ∧ 0 < State.reset.cfg.numWords ∧ 3 < State.reset.cfg.numWords
    ∧ memWf State.reset.frameSize State.reset.frame = true := by decide

/-- An item of each kind, at the ends of its operands' ranges. -/
theorem test_witness_PseudoInstructionsSelectTheirOperations : ref.legal = true ∧ (withMax 32767).legal = true
    ∧ (expand ref (.drive 1 (-32768))).isSome = true ∧ (expand ref (.drive 0 32767)).isSome = true
    ∧ (expand ref (.motor 1 (-32768))).isSome = true ∧ (expand ref (.motor 0 32766)).isSome = true
    ∧ (expand ref (.solOn 1)).isSome = true ∧ (expand ref (.solOff 1)).isSome = true
    ∧ ((32767 : Int).natAbs : Int) = ref.dutyMax + 1 ∧ (withMax 32767).dutyMax = 32767 := by decide +kernel

theorem test_witness_FrameBufferReadsBackWhatIsWritten : memWf 8 [(0, 1), (7, 2)] = true ∧ 7 < 8 ∧ 0 < 8
    ∧ memWf 8 (memSet (memSet [] 7 2) 0 1) = true
    ∧ ∀ x, memGet [(0, 1), (7, 2)] x = memGet (memSet (memSet [] 7 2) 0 1) x := ⟨by decide, by decide, by decide, by decide, fun _ => rfl⟩

/-- A fetch with a frame delivered, and one with none. -/
theorem test_witness_FetchTakesTheNewestFrame :
    (answers State.reset [] [] [[[1, 2, 3, 4, 5, 6, 7, 8]]]).newestFrame = some [1, 2, 3, 4, 5, 6, 7, 8]
    ∧ (∀ f ∈ (answers State.reset [] [] [[[1, 2, 3, 4, 5, 6, 7, 8]]]).handedOver, f.length = State.reset.frameSize)
    ∧ (answers State.reset [] [] [[]]).newestFrame = none
    ∧ ∀ f ∈ (answers State.reset [] [] [[]]).handedOver, f.length = State.reset.frameSize := by decide

/-- A frame one byte short that a complete one follows, and one that is a byte long. -/
theorem test_witness_FetchRefusesAFrameOfAnotherLength :
    List.replicate 7 1 ∈ (answers State.reset [] [] [[List.replicate 7 1, List.replicate 8 2]]).handedOver
    ∧ (List.replicate 7 (1 : Byte)).length ≠ State.reset.frameSize
    ∧ List.replicate 9 1 ∈ { State.reset with pending := some (List.replicate 9 1) }.handedOver
    ∧ (List.replicate 9 (1 : Byte)).length ≠ State.reset.frameSize :=
  ⟨.head _, by decide, .head _, by decide⟩

theorem test_witness_OfTwoDeliveriesTheLaterIsSeen : (answers State.reset [] [] [[]]).env.deliveries = [] :: []
    ∧ (List.replicate 8 (7 : Byte)).length = State.reset.frameSize ∧ (List.replicate 8 (0 : Byte)).length = State.reset.frameSize := by decide

/-- The script's answer at the top of its range. -/
theorem test_witness_VsampleWritesTheFlooredVoltage : (answers State.reset [65535] [] []).env.adc = 65535 :: []
    ∧ 65535 ≤ State.reset.cfg.rawMax := by decide

theorem test_witness_VsampleFiltBlendsAndFloors : ∃ e r : ℚ,
    e = State.reset.cfg.emaAlpha * State.reset.emaState
        + (1 - State.reset.cfg.emaAlpha) * ((State.reset.nextRaw : ℚ) * (State.reset.cfg.vRefMax / State.reset.cfg.adcFullScale))
      ∧ r = max e State.reset.cfg.vMin := ⟨_, _, rfl, rfl⟩

/-- A sample and a filter state on each side of the floor: the last below it, and the first above. -/
theorem test_witness_SampledVoltagesAreFloored : rawVolts ref (answers State.reset [2572] [] []).nextRaw ≤ ref.vMin
    ∧ ref.vMin ≤ rawVolts ref (answers State.reset [2573] [] []).nextRaw
    ∧ emaBlend ref 0 (rawVolts ref 4095) ≤ ref.vMin ∧ ref.vMin ≤ emaBlend ref v363 (rawVolts ref 4095) := by decide +kernel

theorem test_witness_FilterRegistersReachNothingElse :
    sameButFilter State.reset (State.reset.setFilter 5 v363) ∧ State.reset ≠ State.reset.setFilter 5 v363 :=
  ⟨rfl, fun h => absurd (congrArg State.vFiltWritten h) (by decide)⟩

/-- The largest swing, a zero step, and a request within the step. -/
theorem test_witness_SlewLimitLaws : inWordRange (-32768) ∧ inWordRange 32767 ∧ (0 : Int) ≤ 0 ∧ (1 : Int) ≤ 1
    ∧ (((100 : Int) - 30).natAbs : Int) ≤ 70 := by decide

theorem test_witness_HeldDutyIsReachedInCeilCalls : 1 ≤ State.reset.cfg.dutyDiffMax
    ∧ State.reset.mains[1]? = some MainChan.reset ∧ State.reset.subs[1]? = some (SubChan.reset ref) := by decide

/-- A duty that moves the channel, and one on the fast path; the level takes the value that its equation names. -/
theorem test_witness_MainDriveAppliesTheLimitedDuty : State.reset.mains[1]? = some MainChan.reset
    ∧ slewLimit 5000 MainChan.reset.prev State.reset.cfg.dutyDiffMax = 70
    ∧ slewLimit 0 MainChan.reset.prev State.reset.cfg.dutyDiffMax = MainChan.reset.prev := by decide

theorem test_witness_FastPathIgnoresTheVoltage : (onMain ref 5000 19 .nonneg v228).mains[0]? = some ⟨5000, 19, .nonneg⟩
    ∧ slewLimit 5000 5000 (onMain ref 5000 19 .nonneg v228).cfg.dutyDiffMax = 5000 := by decide

/-- Both signs, zero and a tie. -/
theorem test_witness_RoundIsToNearestTiesAway : (0 : ℚ) ≤ 0 ∧ (-1 / 2 : ℚ) < 0 ∧ |((1 : Int) : ℚ) - 1 / 2| = 1 / 2 := by
  norm_num

/-- The floor itself, at the largest in-range duty. -/
theorem test_witness_MainLevelIsTheRoundedFraction : ref.legal = true ∧ ref.vMin ≤ ref.vMin ∧ ((32766 : Int).natAbs : Int) ≤ ref.dutyMax
    ∧ ∃ pre : ℚ, pre = (ref.pwmResolution : ℚ) * ((32766 : Int).natAbs : ℚ) * ref.vMin / ((ref.dutyMax : ℚ) * ref.vMin) :=
  ⟨test_legal_reference, le_refl _, by decide, _, rfl⟩

theorem test_witness_MainLevelIsBoundedAndAntitone : ref.legal = true ∧ ((-32766 : Int).natAbs : Int) ≤ ref.dutyMax
    ∧ ref.vMin ≤ ref.vMin ∧ ref.vMin ≤ v363 := ⟨test_legal_reference, by decide, le_refl _, by decide +kernel⟩

theorem test_witness_DirectionPinFollowsTheAppliedDuty : State.reset.mains[0]? = some MainChan.reset
    ∧ MainChan.reset.dir = dirOf MainChan.reset.prev
    ∧ ∃ t c', exec (.mainDrive 0 (-1)) State.reset = .next t ∧ t.mains[0]? = some c' := by
  refine ⟨rfl, rfl, ?_⟩
  obtain ⟨t, ht⟩ := next_of_got (exec (.mainDrive 0 (-1)) State.reset) (by decide +kernel)
  have h : ((got (exec (.mainDrive 0 (-1)) State.reset)).bind (·.mains[0]?)).isSome = true := by decide +kernel
  rw [ht] at h
  obtain ⟨c', hc'⟩ := Option.isSome_iff_exists.mp h
  exact ⟨t, c', ht, hc'⟩

/-- A reversal from zero, a move without one, and the fast path. -/
theorem test_witness_SubMotorAppliesTheLimitedDuty : State.reset.subs[1]? = some (SubChan.reset ref)
    ∧ (slewLimit (-1) 0 ref.dutyDiffMax).sign ≠ (0 : Int).sign ∧ (slewLimit 71 1 ref.dutyDiffMax).sign = (1 : Int).sign
    ∧ slewLimit 71 1 ref.dutyDiffMax ≠ 1 ∧ slewLimit 0 0 ref.dutyDiffMax = 0
    ∧ (onSub ref (motor 1 .a 125 125) v228).subs[0]? = some (motor 1 .a 125 125) := by decide

/-- At the floor; the tie of 70_reset_and_hazards R241. -/
theorem test_witness_SubLevelComplementsMainLevel : ref.legal = true ∧ ref.vMin ≤ ref.vMin ∧ ((16383 : Int).natAbs : Int) ≤ ref.dutyMax
    ∧ Int.fract ((ref.pwmResolution : ℚ) * ((16383 : Int).natAbs : ℚ) * ref.vMin / ((ref.dutyMax : ℚ) * ref.vMin)) = 1 / 2 := by
  refine ⟨test_legal_reference, le_refl _, by decide, ?_⟩
  have h : (ref.pwmResolution : ℚ) * ((16383 : Int).natAbs : ℚ) * ref.vMin / ((ref.dutyMax : ℚ) * ref.vMin) = 62 + 1 / 2 := by
    decide +kernel
  rw [h, show (62 : ℚ) + 1 / 2 = ((62 : Int) : ℚ) + 1 / 2 by norm_num, Int.fract_intCast_add]
  norm_num [Int.fract]

/-- A channel and a clock answer for each outcome: the last dropped instant, the first accepted one, a
refresh, and a first request. -/
theorem test_witness_SolenoidSwitchDropsRefreshesOrSwitches :
    (∃ (s : State) (c : SubChan), s.subs[0]? = some c ∧ c.sol ≠ .uninit ∧ (s.nextNow - c.t0).toNat + 1 = s.cfg.solenoidTime)
    ∧ (∃ (s : State) (c : SubChan), s.subs[0]? = some c ∧ c.sol = .on ∧ (s.nextNow - c.t0).toNat = s.cfg.solenoidTime)
    ∧ (∃ (s : State) (c : SubChan), s.subs[0]? = some c ∧ c.sol = .uninit ∧ s.cfg.solFirstGated = false)
    ∧ ∃ (s : State) (x : Instant), s.env.clock = x :: [] ∧ s.env.lastNow ≤ x :=
  ⟨⟨answers (onSub ref (solenoid .on 1000 125 0) v228) [] [10999] [], solenoid .on 1000 125 0, by decide⟩,
   ⟨answers (onSub ref (solenoid .on 1000 125 0) v228) [] [11000] [], solenoid .on 1000 125 0, by decide⟩,
   ⟨State.reset, SubChan.reset ref, by decide⟩, ⟨answers State.reset [] [0] [], 0, by decide⟩⟩

theorem test_witness_SolenoidRequestsSwitchToTheirTarget : 1 < State.reset.subs.length := by decide

/-- The first and the last sub channel, and a word for each of the three operations. -/
theorem test_witness_SubDispatchRunsTheSelectedOperation : 0 < State.reset.subs.length ∧ 1 < State.reset.subs.length
    ∧ ((32767 : Int).natAbs : Int) = ref.dutyMax + 1 ∧ ((-32767 : Int).natAbs : Int) = ref.dutyMax + 1
    ∧ ((-32768 : Int).natAbs : Int) ≠ ref.dutyMax + 1 := by decide

theorem test_witness_SubModesKeepEachOthersRegisters : 0 < State.reset.subs.length ∧ 1 < State.reset.subs.length := by decide

theorem test_witness_DwellElapsedTimeNeverWraps : State.reset.Inv ∧ SubChan.reset ref ∈ State.reset.subs :=
  ⟨test_witness_reset_inv, by decide⟩

theorem test_witness_AbsentChannelsFault : State.reset.mains.length ≤ 2 ∧ State.reset.subs.length ≤ 2 := by decide

/-- At a slot that moves the channel with a motor word. -/
theorem test_witness_MotorOnlyPinsStayExclusive : atMotor.Inv ∧ (∃ t, step atMotor = .next t)
    ∧ atMotor.subs[0]? = some (SubChan.reset ref) ∧ (SubChan.reset ref).inactiveAtRest atMotor.cfg
    ∧ ∀ i, issued atMotor = .ok i → ¬ requestsSolenoid atMotor.cfg 0 i := by
  refine ⟨atMotor_inv, next_of_got _ (by decide +kernel), rfl, rfl, fun i h => ?_⟩
  rw [show issued atMotor = .ok (.subMotor 0 50) from rfl] at h
  cases h
  exact id

/-- At a slot that switches the channel with a solenoid word. -/
theorem test_witness_SolenoidOnlyPinsStayExclusive : atSolenoid.Inv ∧ (∃ t, step atSolenoid = .next t)
    ∧ atSolenoid.subs[0]? = some (SubChan.reset ref) ∧ oneAtRest atSolenoid.cfg ((SubChan.reset ref).levelA, (SubChan.reset ref).levelB)
    ∧ ∀ d, issued atSolenoid ≠ .ok (.subMotor 0 d) := by
  refine ⟨atSolenoid_inv, next_of_got _ (by decide +kernel), rfl, .inl rfl, fun d h => ?_⟩
  rw [show issued atSolenoid = .ok (.subSolOn 0) from rfl] at h
  cases h

theorem test_witness_ConfigureWritesEveryOutput : State.reset.mains.length = State.reset.cfg.numMain
    ∧ State.reset.subs.length = State.reset.cfg.numSub := by decide

/-- Two polls on the two sides of the threshold: exactly `V_MIN`, and the next count. -/
theorem test_witness_StartupGatePollsStrictly : ∃ (s : State) (g : Nat) (drawn : State),
    g = s.env.gateAdc.headD (Config.freeGateRaw s.env.draws)
      ∧ drawn = { s with env := { s.env with gateAdc := s.env.gateAdc.tail, draws := s.env.draws + 1 } }
      ∧ ¬ s.cfg.vMin < (g : ℚ) * s.cfg.vScaleGate ∧ s.cfg.vMin < ((g + 1 : Nat) : ℚ) * s.cfg.vScaleGate :=
  ⟨answers (State.resetOf { ref with vScaleGate := mkRat 228 25720 }) [2572] [] [], 2572, _, rfl, rfl, by decide +kernel, by decide +kernel⟩

theorem test_witness_PowerEnableAssertsForGood : (∃ t, exec .vsample atBoundary = .next t) ∧ atBoundary.powerEn = true := ⟨⟨_, rfl⟩, rfl⟩

theorem test_witness_PowerEnableHappensOnce : State.reset.Inv ∧ (∃ t, step State.reset = .next t)
    ∧ State.reset.events.count .powerEnable = (if State.reset.powerEn = true then 1 else 0) :=
  ⟨test_witness_reset_inv, next_of_got _ (by decide +kernel), rfl⟩

theorem test_witness_ControlCycleCompletes : atBoundary.Inv ∧ atBoundary.transportOk ∧ atBoundary.phase = .loop ∧ atBoundary.stage = .vsample :=
  ⟨atBoundary_inv, ⟨nofun, nofun⟩, rfl, rfl⟩

/-- A filter cycle, and a cycle that is none. -/
theorem test_witness_ControlCycleIsItsSteps : atBoundary.cfg.legal = true ∧ atBoundary.phase = .loop ∧ atBoundary.stage = .vsample
    ∧ atBoundary.cycleN % ref.filtPeriodK = 0 ∧ { atBoundary with cycleN := 1 }.cycleN % ref.filtPeriodK ≠ 0 :=
  ⟨test_legal_reference, rfl, rfl, rfl, by decide⟩

theorem test_witness_StepRunsTheDecodedWord : atMotor.cfg.legal = true ∧ atMotor.phase = .loop ∧ atMotor.stage = .slot 2
    ∧ 2 < atMotor.cfg.numWords ∧ atMotor.frameDuties = some atMotor.duty
    ∧ decode atMotor.cfg 2 [memGet atMotor.frame (2 * 2), memGet atMotor.frame (2 * 2 + 1)] = .ok (.subMotor 0 50, []) :=
  ⟨test_legal_reference, rfl, rfl, by decide, by decide +kernel, rfl⟩

/-- A state at each point of the sequence. -/
theorem test_witness_StepIssuesTheFixedSequence : State.reset.cfg.legal = true ∧ State.reset.phase = .configure
    ∧ { State.reset with phase := .gate }.phase = .gate ∧ (inLoop .vsampleFilt [] []).phase = .loop
    ∧ ∀ st, (inLoop st [] []).stage = st ∧ (inLoop st [] []).cfg = State.reset.cfg :=
  ⟨test_legal_reference, rfl, rfl, rfl, fun _ => ⟨rfl, rfl⟩⟩

/-- A cycle boundary, the counts around a filter cycle, and a step that leads to VSAMPLE_FILT. -/
theorem test_witness_FilterRunsEveryKthCycle : atBoundary.cfg.legal = true ∧ atBoundary.phase = .loop ∧ atBoundary.stage = .vsample
    ∧ (0 % ref.filtPeriodK = 0 ∧ 3 % ref.filtPeriodK ≠ 0 ∧ 4 % ref.filtPeriodK = 0)
    ∧ ∃ u, step atBoundary = .next u ∧ issued u = .ok .vsampleFilt := by
  refine ⟨test_legal_reference, rfl, rfl, by decide, ?_⟩
  exact ⟨_, by rw [step_eq atBoundary .vsample test_legal_reference rfl]; rfl, rfl⟩

theorem test_witness_BootedStateHasTheInvariant : ref.legal = true ∧ fast.legal = true := by decide +kernel

theorem test_witness_EveryStepKeepsTheInvariant : atMotor.Inv ∧ (∃ t, step atMotor = .next t) ∧ State.reset.Inv
    ∧ ∃ t, step State.reset = .next t :=
  ⟨atMotor_inv, next_of_got _ (by decide +kernel), test_witness_reset_inv, next_of_got _ (by decide +kernel)⟩

theorem test_witness_TheBlockNeverStops : atSolenoid.Inv ∧ atSolenoid.transportOk := ⟨atSolenoid_inv, ⟨nofun, nofun⟩⟩

/-- A step from each phase. -/
theorem test_witness_PhaseNeverGoesBack : (∃ t, step State.reset = .next t) ∧ State.reset.phase = .configure
    ∧ (∃ t, step (answers { State.reset with phase := .gate } [2573] [] []) = .next t)
    ∧ (∃ t, step atMotor = .next t) ∧ atMotor.phase = .loop :=
  ⟨next_of_got _ (by decide +kernel), rfl, next_of_got _ (by decide +kernel), next_of_got _ (by decide +kernel), rfl⟩

/-- An operation that sets the flag, and one on a state that has it. -/
theorem test_witness_RangeFlagIsStickyAndExact : (∃ t, exec (.mainDrive 0 32767) State.reset = .next t)
    ∧ (∃ t, exec .vsample { State.reset with fRange := true } = .next t) ∧ Instr.mainDrive 0 32767 ≠ .controlCycle
    ∧ ref.dutyMax < ((32767 : Int).natAbs : Int) := ⟨next_of_got _ (by decide +kernel), ⟨_, rfl⟩, by decide, by decide⟩

theorem test_witness_RangeFlagIsNeverRead : sameButRange State.reset { State.reset with fRange := true }
    ∧ State.reset.fRange ≠ true := ⟨rfl, by decide⟩

theorem test_witness_ConfigurationIsReadOnly : ∃ t, exec .configure State.reset = .next t := next_of_got _ (by decide +kernel)

/-- Operations that change a register; one on a channel of each file, with another channel beside it. -/
theorem test_witness_RegistersHaveTheirWriters : (∃ t, exec (.subMotor 0 50) State.reset = .next t) ∧ Instr.subMotor 0 50 ≠ .controlCycle
    ∧ (got (exec (.subMotor 0 50) State.reset)).map (·.subs.map (·.prev)) ≠ some (State.reset.subs.map (·.prev))
    ∧ (got (exec (.mainDrive 0 50) State.reset)).map (·.mains.map (·.prev)) ≠ some (State.reset.mains.map (·.prev))
    ∧ onSubChannel 0 (.subMotor 0 50) ∧ 1 ≠ 0 ∧ 1 < State.reset.subs.length ∧ 1 < State.reset.mains.length :=
  ⟨next_of_got _ (by decide +kernel), by decide, by decide +kernel, by decide +kernel, .inr (.inr (.inl ⟨50, rfl⟩)),
    by decide, by decide, by decide⟩

theorem test_witness_ClockNeverDecreases : ∃ t, exec (.subSolOn 0) State.reset = .next t := ⟨_, rfl⟩

theorem test_witness_SolenoidNeverReturnsToUninit : ∃ c : SubChan,
    (∃ t, step { atMotor with subs := [c, SubChan.reset ref] } = .next t)
      ∧ { atMotor with subs := [c, SubChan.reset ref] }.subs[0]? = some c ∧ c.sol ≠ .uninit :=
  ⟨solenoid .on 5 125 0, next_of_got _ (by decide +kernel), rfl, by decide⟩

/-- Pairs that meet the premises: two motors, a motor and a solenoid request on two sub channels, on a main
and a sub channel of the same number, and two solenoid requests whose draws give one answer. -/
theorem test_witness_MotorChannelsCommute :
    (differentChannels (.mainDrive 0 5) (.mainDrive 1 6) ∧ isMotor ref (.mainDrive 0 5)
      ∧ ∃ t, andThen (exec (.mainDrive 0 5) State.reset) (exec (.mainDrive 1 6)) = .next t)
    ∧ (differentChannels (.subMotor 0 5) (.subSolOn 1) ∧ isMotor ref (.subMotor 0 5)
      ∧ ∃ t, andThen (exec (.subMotor 0 5) State.reset) (exec (.subSolOn 1)) = .next t)
    ∧ (differentChannels (.subDispatch 0 (-32767)) (.mainDrive 0 6) ∧ isMotor ref (.mainDrive 0 6)
      ∧ ∃ t, andThen (exec (.subDispatch 0 (-32767)) State.reset) (exec (.mainDrive 0 6)) = .next t)
    ∧ differentChannels (.subSolOn 0) (.subSolOff 1)
      ∧ (answers State.reset [] [7, 7] []).nextNow = (answers State.reset [] [7, 7] []).drawNow.2.nextNow
      ∧ ∃ t, andThen (exec (.subSolOn 0) (answers State.reset [] [7, 7] [])) (exec (.subSolOff 1)) = .next t :=
  ⟨⟨.inl ⟨0, 1, ⟨5, rfl⟩, ⟨6, rfl⟩, by decide⟩, .inl ⟨0, 5, rfl⟩, next_of_got _ (by decide +kernel)⟩,
    ⟨.inr (.inr (.inr ⟨0, 1, .inr (.inr (.inl ⟨5, rfl⟩)), .inl rfl, by decide⟩)), .inr (.inl ⟨0, 5, rfl⟩), next_of_got _ (by decide +kernel)⟩,
    ⟨.inr (.inr (.inl ⟨0, 0, .inr (.inr (.inr (.inr ⟨-32767, rfl⟩))), ⟨6, rfl⟩⟩)), .inl ⟨0, 6, rfl⟩, next_of_got _ (by decide +kernel)⟩,
    .inr (.inr (.inr ⟨0, 1, .inl rfl, .inr (.inl rfl), by decide⟩)), by decide +kernel, next_of_got _ (by decide +kernel)⟩

theorem test_witness_PortsHoldWhatWasWritten : atSolenoid.Inv ∧ (∃ t, step atSolenoid = .next t)
    ∧ atSolenoid.mains[1]? = some MainChan.reset ∧ atSolenoid.subs[1]? = some (SubChan.reset ref) :=
  ⟨atSolenoid_inv, next_of_got _ (by decide +kernel), rfl, rfl⟩

/-- The configurations just outside a bound. -/
theorem test_witness_IllegalConfigurationsAreRefused : ¬ 1 ≤ (withMax 0).dutyMax ∧ ¬ (withMax 32768).dutyMax ≤ 32767
    ∧ (State.resetOf (withMax 0)).cfg.legal = false := ⟨by decide, by decide, by decide +kernel⟩

end Sys2Proof.Tests
end

/-! # 00_scope: the output ports, rounding, and the configuration at boot

The ports claim (R12, R13) rests on a preorder, `PortsFollow`, that every write primitive keeps; an
operation keeps it because it is a sequence of primitives. -/

namespace Sys2Proof.Machine

section Replay
/-! How the replays of Safety.lean read a record of events. -/

@[simp] theorem pinOfMain_append (m : Nat) (l : Int) (xs ys : List Event) :
    pinOfMain m l (xs ++ ys) = pinOfMain m (pinOfMain m l xs) ys := by
  induction xs generalizing l with
  | nil => rfl
  | cons e xs ih =>
    rcases e with ⟨_ | ⟨_, _⟩, _⟩ | ⟨_, _⟩ | _ <;> exact ih _

@[simp] theorem dirOfMain_append (m : Nat) (d : Dir) (xs ys : List Event) :
    dirOfMain m d (xs ++ ys) = dirOfMain m (dirOfMain m d xs) ys := by
  induction xs generalizing d with
  | nil => rfl
  | cons e xs ih =>
    rcases e with ⟨_, _⟩ | ⟨_, _⟩ | _ <;> exact ih _

@[simp] theorem pinsOfSub_append (k : Nat) (p : Int × Int) (xs ys : List Event) :
    pinsOfSub k p (xs ++ ys) = pinsOfSub k (pinsOfSub k p xs) ys := by
  induction xs generalizing p with
  | nil => rfl
  | cons e xs ih =>
    rcases e with ⟨_ | ⟨_, _ | _⟩, _⟩ | ⟨_, _⟩ | _ <;> exact ih _

/-- The first part of CONFIGURE's record: every main channel's level and direction
(44_decoder_and_cycle R186). -/
def configureMainEvents (n : Nat) : List Event :=
  (List.range n).flatMap fun m => [.pinWrite (.main m) 0, .dirWrite m .nonneg]

/-- The second part of CONFIGURE's record: both pins of every sub channel (44_decoder_and_cycle R186). -/
def configureSubEvents (rest : Int) (n : Nat) : List Event :=
  (List.range n).flatMap fun k => [.pinWrite (.sub k .a) rest, .pinWrite (.sub k .b) rest]

theorem configureEvents_eq (c : Config) :
    configureEvents c = configureMainEvents c.numMain ++ configureSubEvents (restLevel c) c.numSub := rfl

theorem configureMainEvents_succ (n : Nat) :
    configureMainEvents (n + 1) = configureMainEvents n ++ [.pinWrite (.main n) 0, .dirWrite n .nonneg] := by
  simp [configureMainEvents, List.range_succ]

theorem configureSubEvents_succ (rest : Int) (n : Nat) :
    configureSubEvents rest (n + 1)
      = configureSubEvents rest n ++ [.pinWrite (.sub n .a) rest, .pinWrite (.sub n .b) rest] := by
  simp [configureSubEvents, List.range_succ]

theorem pinOfMain_configureMainEvents (m : Nat) (l : Int) (n : Nat) :
    pinOfMain m l (configureMainEvents n) = if m < n then 0 else l := by
  induction n with
  | zero => rfl
  | succ n ih =>
    simp only [configureMainEvents_succ, pinOfMain_append, ih, pinOfMain]
    grind

theorem dirOfMain_configureMainEvents (m : Nat) (d : Dir) (n : Nat) :
    dirOfMain m d (configureMainEvents n) = if m < n then .nonneg else d := by
  induction n with
  | zero => rfl
  | succ n ih =>
    simp only [configureMainEvents_succ, dirOfMain_append, ih, dirOfMain]
    grind

theorem pinsOfSub_configureMainEvents (k : Nat) (p : Int × Int) (n : Nat) :
    pinsOfSub k p (configureMainEvents n) = p := by
  induction n with
  | zero => rfl
  | succ n ih => simp only [configureMainEvents_succ, pinsOfSub_append, ih, pinsOfSub]

theorem pinOfMain_configureSubEvents (m : Nat) (l rest : Int) (n : Nat) :
    pinOfMain m l (configureSubEvents rest n) = l := by
  induction n with
  | zero => rfl
  | succ n ih => simp only [configureSubEvents_succ, pinOfMain_append, ih, pinOfMain]

theorem dirOfMain_configureSubEvents (m : Nat) (d : Dir) (rest : Int) (n : Nat) :
    dirOfMain m d (configureSubEvents rest n) = d := by
  induction n with
  | zero => rfl
  | succ n ih => simp only [configureSubEvents_succ, dirOfMain_append, ih, dirOfMain]

theorem pinsOfSub_configureSubEvents (k : Nat) (p : Int × Int) (rest : Int) (n : Nat) :
    pinsOfSub k p (configureSubEvents rest n) = if k < n then (rest, rest) else p := by
  induction n with
  | zero => rfl
  | succ n ih =>
    simp only [configureSubEvents_succ, pinsOfSub_append, ih, pinsOfSub]
    grind

/-- CONFIGURE's record leaves the level of every main channel at 0 (44_decoder_and_cycle R186). -/
theorem pinOfMain_configureEvents (c : Config) (m : Nat) (l : Int) (h : m < c.numMain) :
    pinOfMain m l (configureEvents c) = 0 := by
  rw [configureEvents_eq, pinOfMain_append, pinOfMain_configureSubEvents, pinOfMain_configureMainEvents, if_pos h]

/-- CONFIGURE's record leaves every direction NonNeg (44_decoder_and_cycle R186). -/
theorem dirOfMain_configureEvents (c : Config) (m : Nat) (d : Dir) (h : m < c.numMain) :
    dirOfMain m d (configureEvents c) = .nonneg := by
  rw [configureEvents_eq, dirOfMain_append, dirOfMain_configureSubEvents, dirOfMain_configureMainEvents, if_pos h]

/-- CONFIGURE's record leaves both pins of every sub channel at rest (44_decoder_and_cycle R186). -/
theorem pinsOfSub_configureEvents (c : Config) (k : Nat) (p : Int × Int) (h : k < c.numSub) :
    pinsOfSub k p (configureEvents c) = (restLevel c, restLevel c) := by
  rw [configureEvents_eq, pinsOfSub_append, pinsOfSub_configureMainEvents, pinsOfSub_configureSubEvents, if_pos h]

end Replay

section Ports

/-- From `s` to `t` the record grew, and the ports moved as the new events say (00_scope R12, R13). -/
def PortsFollow (s t : State) : Prop :=
  ∃ new, t.events = s.events ++ new
    ∧ (∀ m c, s.mains[m]? = some c → ∃ c', t.mains[m]? = some c'
        ∧ c'.level = pinOfMain m c.level new ∧ c'.dir = dirOfMain m c.dir new)
    ∧ ∀ k c, s.subs[k]? = some c → ∃ c', t.subs[k]? = some c'
        ∧ (c'.levelA, c'.levelB) = pinsOfSub k (c.levelA, c.levelB) new

theorem PortsFollow.trans {s t u : State} (h₁ : PortsFollow s t) (h₂ : PortsFollow t u) : PortsFollow s u := by
  obtain ⟨x, hx, mains₁, subs₁⟩ := h₁
  obtain ⟨y, hy, mains₂, subs₂⟩ := h₂
  refine ⟨x ++ y, by rw [hy, hx, List.append_assoc], fun m c hc => ?_, fun k c hc => ?_⟩
  · obtain ⟨c₁, hc₁, level₁, dir₁⟩ := mains₁ m c hc
    obtain ⟨c₂, hc₂, level₂, dir₂⟩ := mains₂ m c₁ hc₁
    exact ⟨c₂, hc₂, by rw [level₂, level₁, pinOfMain_append], by rw [dir₂, dir₁, dirOfMain_append]⟩
  · obtain ⟨c₁, hc₁, pins₁⟩ := subs₁ k c hc
    obtain ⟨c₂, hc₂, pins₂⟩ := subs₂ k c₁ hc₁
    exact ⟨c₂, hc₂, by rw [pins₂, pins₁, pinsOfSub_append]⟩

/-- A move that touches no port and no record. -/
theorem PortsFollow.of_eq {s t : State} (events : t.events = s.events) (mains : t.mains = s.mains)
    (subs : t.subs = s.subs) : PortsFollow s t :=
  ⟨[], by simp [events], fun _ c hc => ⟨c, by rw [mains, hc], rfl, rfl⟩, fun _ c hc => ⟨c, by rw [subs, hc], rfl⟩⟩

theorem PortsFollow.refl (s : State) : PortsFollow s s := .of_eq rfl rfl rfl

/-- An entry of a file in which one entry was modified. -/
theorem getElem?_modify_of_some {α : Type} {l : List α} {j : Nat} {x : α} (i : Nat) (f : α → α) (h : l[j]? = some x) :
    (l.modify i f)[j]? = some (if i = j then f x else x) := by
  rw [List.getElem?_modify, h]
  split <;> rfl

/-! The write primitives of 00_scope R12. -/

theorem portsFollow_mainPin (s : State) (m : Nat) (l : Int) : PortsFollow s (s.mainPin m l) := by
  refine ⟨_, rfl, fun j c hc => ⟨_, getElem?_modify_of_some m _ hc, ?_⟩, fun _ c hc => ⟨c, hc, rfl⟩⟩
  by_cases h : m = j <;> simp [h, pinOfMain, dirOfMain]

theorem portsFollow_mainDir (s : State) (m : Nat) (d : Dir) : PortsFollow s (s.mainDir m d) := by
  refine ⟨_, rfl, fun j c hc => ⟨_, getElem?_modify_of_some m _ hc, ?_⟩, fun _ c hc => ⟨c, hc, rfl⟩⟩
  by_cases h : m = j <;> simp [h, pinOfMain, dirOfMain]

theorem portsFollow_setMainPrev (s : State) (m : Nat) (d : Int) : PortsFollow s (s.setMainPrev m d) := by
  refine ⟨[], by simp, fun j c hc => ⟨_, getElem?_modify_of_some m _ hc, ?_⟩, fun _ c hc => ⟨c, hc, rfl⟩⟩
  by_cases h : m = j <;> simp [h, pinOfMain, dirOfMain]

theorem portsFollow_subPin (s : State) (k : Nat) (x : Side) (l : Int) : PortsFollow s (s.subPin k x l) := by
  refine ⟨_, rfl, fun _ c hc => ⟨c, hc, rfl, rfl⟩, fun j c hc => ⟨_, getElem?_modify_of_some k _ hc, ?_⟩⟩
  cases x <;> by_cases h : k = j <;> simp [h, pinsOfSub]

/-- A write of sub-channel registers that are not ports. -/
theorem portsFollow_modify_sub (s : State) (k : Nat) (f : SubChan → SubChan)
    (hf : ∀ c, (f c).levelA = c.levelA ∧ (f c).levelB = c.levelB) :
    PortsFollow s { s with subs := s.subs.modify k f } := by
  refine ⟨[], by simp, fun _ c hc => ⟨c, hc, rfl, rfl⟩, fun j c hc => ⟨_, getElem?_modify_of_some k _ hc, ?_⟩⟩
  by_cases h : k = j <;> simp [h, hf, pinsOfSub]

theorem portsFollow_setSubActive (s : State) (k : Nat) (x : Side) : PortsFollow s (s.setSubActive k x) :=
  portsFollow_modify_sub s k _ fun _ => ⟨rfl, rfl⟩

theorem portsFollow_setSubPrev (s : State) (k : Nat) (d : Int) : PortsFollow s (s.setSubPrev k d) :=
  portsFollow_modify_sub s k _ fun _ => ⟨rfl, rfl⟩

theorem portsFollow_setSolenoid (s : State) (k : Nat) (x : SolState) (now : Instant) :
    PortsFollow s (s.setSolenoid k x now) :=
  portsFollow_modify_sub s k _ fun _ => ⟨rfl, rfl⟩

theorem portsFollow_assertPower (s : State) : PortsFollow s s.assertPower :=
  ⟨_, rfl, fun _ c hc => ⟨c, hc, rfl, rfl⟩, fun _ c hc => ⟨c, hc, rfl⟩⟩

/-- CONFIGURE records one write per port, so the files must have the configured sizes: a channel beyond
them would be reset without a record. -/
theorem portsFollow_configureOutputs (s : State) (hm : s.mains.length = s.cfg.numMain)
    (hs : s.subs.length = s.cfg.numSub) : PortsFollow s s.configureOutputs := by
  refine ⟨_, rfl, fun m c hc => ?_, fun k c hc => ?_⟩
  · have lt : m < s.cfg.numMain := hm ▸ (List.getElem?_eq_some_iff.mp hc).1
    have entry : s.configureOutputs.mains[m]? = some { c with level := 0, dir := .nonneg } := by simp [hc]
    exact ⟨_, entry, (pinOfMain_configureEvents _ m _ lt).symm, (dirOfMain_configureEvents _ m _ lt).symm⟩
  · have lt : k < s.cfg.numSub := hs ▸ (List.getElem?_eq_some_iff.mp hc).1
    have entry : s.configureOutputs.subs[k]? =
        some { c with levelA := restLevel s.cfg, levelB := restLevel s.cfg } := by simp [hc]
    exact ⟨_, entry, (pinsOfSub_configureEvents _ k _ lt).symm⟩

/-! The composite writes, as sequences of primitives. -/

theorem portsFollow_applyMain (s : State) (m : Nat) (d1 : Int) : PortsFollow s (s.applyMain m d1) :=
  (portsFollow_mainPin s m _).trans <| (portsFollow_mainDir _ m _).trans <| portsFollow_setMainPrev _ m d1

theorem portsFollow_handOver (s : State) (k : Nat) (c : SubChan) (d1 : Int) : PortsFollow s (s.handOver k c d1) := by
  unfold State.handOver
  split
  · exact (portsFollow_subPin s k _ _).trans (portsFollow_setSubActive _ k _)
  · exact .refl s

theorem portsFollow_applySub (s : State) (k : Nat) (c : SubChan) (d1 : Int) : PortsFollow s (s.applySub k c d1) :=
  (portsFollow_handOver s k c d1).trans <| (portsFollow_subPin _ k _ _).trans <| portsFollow_setSubPrev _ k d1

theorem portsFollow_writePattern (s : State) (k : Nat) (on : Bool) : PortsFollow s (s.writePattern k on) := by
  cases on <;> exact (portsFollow_subPin s k _ _).trans (portsFollow_subPin _ k _ _)

theorem portsFollow_refreshSolenoid (s : State) (k : Nat) (on : Bool) : PortsFollow s (s.refreshSolenoid k on) := by
  unfold State.refreshSolenoid
  split
  · exact portsFollow_writePattern s k on
  · exact (portsFollow_subPin s k _ _).trans (portsFollow_subPin _ k _ _)

theorem portsFollow_solenoidAt (s : State) (k : Nat) (c : SubChan) (on : Bool) (now : Instant) :
    PortsFollow s (s.solenoidAt k c on now) := by
  unfold State.solenoidAt
  split
  · exact .refl s
  · split
    · exact portsFollow_refreshSolenoid s k on
    · exact (portsFollow_writePattern s k on).trans (portsFollow_setSolenoid _ k _ now)

/-- The ports follow the record through every operation but CONTROL_CYCLE, in a machine whose channel
files have the configured sizes. -/
theorem Effect.portsFollow {i : Instr} {s t : State} (h : Effect i s t) (hm : s.mains.length = s.cfg.numMain)
    (hs : s.subs.length = s.cfg.numSub) : PortsFollow s t := by
  cases h with
  | mainFast => exact .of_eq rfl rfl rfl
  | mainMove => exact .trans (.of_eq rfl rfl rfl) (portsFollow_applyMain (s.checkRange _) _ _)
  | subFast => exact .of_eq rfl rfl rfl
  | subMove => exact .trans (.of_eq rfl rfl rfl) (portsFollow_applySub (s.checkRange _) _ _ _)
  | solenoid => exact .trans (.of_eq rfl rfl rfl) (portsFollow_solenoidAt s.drawNow.2 _ _ _ _)
  | configureGate => exact (portsFollow_configureOutputs s hm hs).trans (.of_eq rfl rfl rfl)
  | configureLoop =>
    exact (portsFollow_configureOutputs s hm hs).trans <|
      .trans (.of_eq rfl rfl rfl) (portsFollow_assertPower (s.configureOutputs.setPhase .loop))
  | gatePass =>
    exact .trans (.of_eq rfl rfl rfl) <| (portsFollow_assertPower s.drawRawGate.2).trans (.of_eq rfl rfl rfl)
  | gateWait => exact .of_eq rfl rfl rfl
  | power => exact portsFollow_assertPower s
  | sample => exact .of_eq rfl rfl rfl
  | filter => exact .of_eq rfl rfl rfl
  | fetchNone => exact .of_eq rfl rfl rfl
  | fetchNew => exact .of_eq rfl rfl rfl
  | decode => exact .of_eq rfl rfl rfl
  | slew => exact .of_eq rfl rfl rfl
  | sleep => exact .refl s

/-- The sequencer's own move writes no port. -/
theorem portsFollow_advance (s t : State) : PortsFollow t (advance s t) := by
  by_cases hp : s.phase = .loop
  · rw [advance_loop s t hp]
    split <;> exact .of_eq rfl rfl rfl
  · rw [advance_start s t hp]
    exact .refl t

end Ports

/-- Settles O58: a step is the effect of one operation and a move of the sequencer, and both keep the
ports with the record. -/
theorem portsHoldWhatWasWritten : Obligations.PortsHoldWhatWasWritten := by
  intro s t inv h
  obtain ⟨-, i, u, -, -, effect, rfl⟩ := step_effect s t h
  exact (effect.portsFollow inv.mainFile inv.subFile).trans (portsFollow_advance s u)

section Rounding

theorem roundAway_of_nonneg {x : ℚ} (h : 0 ≤ x) : roundAway x = ⌊x + 1 / 2⌋ := if_pos h

theorem roundAway_of_neg {x : ℚ} (h : x < 0) : roundAway x = -⌊-x + 1 / 2⌋ := if_neg h.not_ge

/-- A negative number rounds as its opposite does, which carries the laws below over to it. -/
theorem roundAway_eq_neg_of_neg {x : ℚ} (h : x < 0) : roundAway x = -roundAway (-x) := by
  rw [roundAway_of_neg h, roundAway_of_nonneg (by linarith)]

theorem abs_roundAway_sub_le_of_nonneg {x : ℚ} (h : 0 ≤ x) : |(roundAway x : ℚ) - x| ≤ 1 / 2 := by
  have low := Int.floor_le (x + 1 / 2)
  have high := Int.lt_floor_add_one (x + 1 / 2)
  rw [roundAway_of_nonneg h, abs_le]
  constructor <;> linarith

/-- `round` gives a nearest integer (00_scope R11). -/
theorem abs_roundAway_sub_le (x : ℚ) : |(roundAway x : ℚ) - x| ≤ 1 / 2 := by
  rcases le_or_gt 0 x with h | h
  · exact abs_roundAway_sub_le_of_nonneg h
  · have near := abs_roundAway_sub_le_of_nonneg (x := -x) (by linarith)
    rw [roundAway_eq_neg_of_neg h, ← abs_neg]
    convert near using 2
    push_cast
    ring

/-- Both integers at a tie of a non-negative number are non-negative and not above what it rounds to. -/
theorem natAbs_le_roundAway_of_tie_of_nonneg {x : ℚ} {n : Int} (h : 0 ≤ x) (tie : |(n : ℚ) - x| = 1 / 2) :
    n.natAbs ≤ (roundAway x).natAbs := by
  obtain ⟨low, high⟩ := abs_le.mp tie.le
  have le : n ≤ roundAway x := by
    rw [roundAway_of_nonneg h, Int.le_floor]
    linarith
  have nonneg : -1 < n := by
    have : (-1 : ℚ) < n := by linarith
    exact_mod_cast this
  omega

/-- No integer at a tie is farther from zero than the one that `round` gives (00_scope R11). -/
theorem natAbs_le_roundAway_of_tie {x : ℚ} {n : Int} (tie : |(n : ℚ) - x| = 1 / 2) :
    n.natAbs ≤ (roundAway x).natAbs := by
  rcases le_or_gt 0 x with h | h
  · exact natAbs_le_roundAway_of_tie_of_nonneg h tie
  · have tie' : |((-n : Int) : ℚ) - -x| = 1 / 2 := by
      rw [← tie, ← abs_neg]
      push_cast
      ring_nf
    have le := natAbs_le_roundAway_of_tie_of_nonneg (by linarith) tie'
    rwa [Int.natAbs_neg, ← Int.natAbs_neg (roundAway (-x)), ← roundAway_eq_neg_of_neg h] at le

end Rounding

/-- Settles O23, from the laws for non-negative numbers and the symmetry about zero. -/
theorem roundIsToNearestTiesAway : Obligations.RoundIsToNearestTiesAway :=
  fun x => ⟨roundAway_of_nonneg, roundAway_of_neg, abs_roundAway_sub_le x, fun _ => natAbs_le_roundAway_of_tie⟩

section Boot

theorem boot_of_legal {c : Config} (h : c.legal = true) : boot c = .next (State.resetOf c) := if_pos h

theorem boot_of_illegal {c : Config} (h : ¬ c.legal = true) : boot c = .refused .configRefused := if_neg h

theorem step_of_illegal {s : State} (h : ¬ s.cfg.legal = true) : step s = .refused .configRefused := if_neg h

/-- R8's `V_SCALE > 0` holds in a legal configuration, by the two bounds that legality puts in its place. -/
theorem vScale_pos_of_legal {c : Config} (h : c.legal = true) : 0 < vScale c := by
  obtain ⟨-, -, -, -, -, refMax, fullScale, -⟩ := c.legal_iff.mp h
  exact div_pos refMax (by exact_mod_cast fullScale)

theorem MainChan.reset_ok (c : Config) (h : c.legal = true) : MainChan.reset.Ok c := by
  obtain ⟨-, -, -, resolution, -⟩ := c.legal_iff.mp h
  exact ⟨by decide, le_rfl, by simp only [MainChan.reset]; omega, rfl⟩

theorem SubChan.reset_ok (c : Config) (now : Instant) (h : c.legal = true) : (SubChan.reset c).Ok c now := by
  obtain ⟨-, -, -, resolution, -⟩ := c.legal_iff.mp h
  have nonneg : 0 ≤ c.pwmResolution := by omega
  exact ⟨by simp [SubChan.reset, inWordRange], nonneg, le_rfl, nonneg, le_rfl, rfl, BitVec.le_def.mpr (Nat.zero_le _), fun _ => rfl⟩

/-- The reset state of every legal configuration is a state of the invariant (70_reset_and_hazards R230). -/
theorem State.resetOf_inv {c : Config} (h : c.legal = true) : (State.resetOf c).Inv where
  cfgLegal := h
  mainFile := List.length_replicate
  subFile := List.length_replicate
  mainsOk := fun _ hc => List.eq_of_mem_replicate hc ▸ MainChan.reset_ok c h
  subsOk := fun _ hc => List.eq_of_mem_replicate hc ▸ SubChan.reset_ok c _ h
  frameOk := rfl
  vNowFloor := le_rfl
  vFiltFloor := le_rfl
  sampled := fun hs => absurd rfl hs
  slotInFrame := nofun
  dutiesDecoded := nofun
  powerInLoop := rfl
  gatePresent := nofun
  startStage := fun _ => rfl
  startDuties := fun _ _ hc => List.eq_of_mem_replicate hc ▸ rfl

theorem State.resetOf_transportOk (c : Config) : (State.resetOf c).transportOk := ⟨nofun, nofun⟩

theorem Config.reference_legal : Config.reference.legal = true := by decide

end Boot

/-- Settles O59: each of R8's bounds is a bound of a legal configuration. -/
theorem illegalConfigurationsAreRefused : Obligations.IllegalConfigurationsAreRefused := by
  refine ⟨fun c breach => boot_of_illegal fun legal => breach ?_, fun s h => step_of_illegal (by simp [h])⟩
  obtain ⟨dutyLow, dutyHigh, diff, resolution, vMin, -, -, alphaLow, alphaHigh, period, words, -⟩ :=
    c.legal_iff.mp legal
  exact ⟨dutyLow, dutyHigh, diff, resolution, vMin, vScale_pos_of_legal legal, alphaLow, alphaHigh, period, words⟩

/-- Settles O47: the reference configuration is legal, so its reset state is a case of the general one. -/
theorem bootedStateHasTheInvariant : Obligations.BootedStateHasTheInvariant :=
  ⟨fun c h => ⟨boot_of_legal h, State.resetOf_inv h, State.resetOf_transportOk c⟩,
    State.resetOf_inv Config.reference_legal⟩

end Sys2Proof.Machine

/-! # 10_state: who writes each register, the invariant, what no operation reads, and the channels apart

Every claim about one operation is read off its effect (`exec_effect`), every claim about a step off the
effect of the operation that the sequencer issues (`step_effect`). -/

namespace Sys2Proof.Machine

section Files
/-! A channel file in which one entry is replaced. -/

variable {α β : Type} {l : List α} {k : Nat} {x y : α}

/-- Replacing an entry by itself. -/
theorem set_of_getElem? (h : l[k]? = some x) : l.set k x = l := by
  obtain ⟨lt, rfl⟩ := List.getElem?_eq_some_iff.mp h
  exact List.set_getElem_self lt

/-- Replacing an entry keeps a field that the new entry shares with the old one. -/
theorem map_set_of_eq (h : l[k]? = some x) (g : α → β) (hg : g y = g x) : (l.set k y).map g = l.map g := by
  apply List.ext_getElem?
  intro j
  rw [List.map_set, List.getElem?_set, List.getElem?_map]
  split
  · subst_vars
    obtain ⟨lt, rfl⟩ := List.getElem?_eq_some_iff.mp h
    simp [lt, hg]
  · rfl

/-- A property of every entry survives a replacement by an entry that has it. -/
theorem forall_mem_set {P : α → Prop} (h : ∀ c ∈ l, P c) (hy : P y) : ∀ c ∈ l.set k y, P c := fun c hc =>
  (List.mem_or_eq_of_mem_set hc).elim (h c) (· ▸ hy)

end Files

section Writers
/-! The registers that one operation can write, read off its effect (10_state R22 to R38). -/

theorem runsMotor.form {cfg : Config} {k : Nat} {d : Int} {i : Instr} (h : runsMotor cfg k d i) :
    i = .subMotor k d ∨ i = .subDispatch k d := h.imp_right And.left

theorem runsSolenoid.form {cfg : Config} {k : Nat} {on : Bool} {i : Instr} (h : runsSolenoid cfg k on i) :
    ∃ d, i = .subSolOn k ∨ i = .subSolOff k ∨ i = .solenoidSwitch k on ∨ i = .subDispatch k d := by
  obtain rfl | ⟨rfl, -⟩ | ⟨rfl, -⟩ | ⟨d, rfl, -⟩ := h
  exacts [⟨0, by simp⟩, ⟨0, by simp⟩, ⟨0, by simp⟩, ⟨d, by simp⟩]

theorem runsMotor.targets {cfg : Config} {k : Nat} {d : Int} {i : Instr} (h : runsMotor cfg k d i) :
    onSubChannel k i := by
  obtain rfl | rfl := h.form <;> simp [onSubChannel]

theorem runsSolenoid.targets {cfg : Config} {k : Nat} {on : Bool} {i : Instr} (h : runsSolenoid cfg k on i) :
    onSubChannel k i := by
  obtain ⟨d, rfl | rfl | rfl | rfl⟩ := h.form <;> simp [onSubChannel]

/-- An operation on a sub channel is on no other one. -/
theorem onSubChannel.unique {k l : Nat} {i : Instr} (hk : onSubChannel k i) (hl : onSubChannel l i) : k = l := by
  obtain rfl | rfl | ⟨_, rfl⟩ | ⟨_, rfl⟩ | ⟨_, rfl⟩ := hk <;> simpa [onSubChannel, eq_comm] using hl

/-- What SUB_MOTOR's rule leaves: the old side at rest on a reversal, the new side driven, the duty stored. -/
theorem movedSub_eq (cfg : Config) (v : Volts) (c : SubChan) (d1 : Int) :
    movedSub cfg v c d1 =
      { (if reverses c.prev d1 then c.withLevel c.active (restLevel cfg) else c).withLevel (activeAfter c d1)
          (subLevel cfg d1 v) with active := activeAfter c d1, prev := d1 } := by
  unfold movedSub activeAfter
  split
  · cases sideOf d1 <;> rfl
  · rcases c with ⟨_, _ | _, _⟩ <;> rfl

@[simp] theorem movedSub_sol (cfg : Config) (v : Volts) (c : SubChan) (d1 : Int) :
    (movedSub cfg v c d1).sol = c.sol := by
  rw [movedSub_eq]
  split <;> simp

@[simp] theorem movedSub_t0 (cfg : Config) (v : Volts) (c : SubChan) (d1 : Int) :
    (movedSub cfg v c d1).t0 = c.t0 := by
  rw [movedSub_eq]
  split <;> simp

@[simp] theorem patternOf_prev (cfg : Config) (c : SubChan) (on : Bool) : (patternOf cfg c on).prev = c.prev := by
  cases on <;> rfl

@[simp] theorem patternOf_active (cfg : Config) (c : SubChan) (on : Bool) :
    (patternOf cfg c on).active = c.active := by
  cases on <;> rfl

@[simp] theorem patternOf_sol (cfg : Config) (c : SubChan) (on : Bool) : (patternOf cfg c on).sol = c.sol := by
  cases on <;> rfl

/-- A solenoid request leaves a channel with its own pins, the pattern of its target, or both pins at rest;
an accepted transition also writes the state and the timer (43_sub_channel R153, R159). -/
theorem switched_cases (cfg : Config) (k : Nat) (c : SubChan) (on : Bool) (now : Instant) :
    switched cfg k c on now = (c, [])
      ∨ switched cfg k c on now = (patternOf cfg c on, patternEvents cfg k on)
      ∨ switched cfg k c on now = ({ c with levelA := restLevel cfg, levelB := restLevel cfg },
          [.pinWrite (.sub k .a) (restLevel cfg), .pinWrite (.sub k .b) (restLevel cfg)])
      ∨ switched cfg k c on now =
          ({ patternOf cfg c on with sol := solTarget on, t0 := now }, patternEvents cfg k on) := by
  unfold switched
  split
  · exact .inl rfl
  · split
    · unfold refreshed
      split
      · exact .inr (.inl rfl)
      · exact .inr (.inr (.inl rfl))
    · exact .inr (.inr (.inr rfl))

@[simp] theorem switched_prev (cfg : Config) (k : Nat) (c : SubChan) (on : Bool) (now : Instant) :
    (switched cfg k c on now).1.prev = c.prev := by
  obtain h | h | h | h := switched_cases cfg k c on now <;> simp [h]

@[simp] theorem switched_active (cfg : Config) (k : Nat) (c : SubChan) (on : Bool) (now : Instant) :
    (switched cfg k c on now).1.active = c.active := by
  obtain h | h | h | h := switched_cases cfg k c on now <;> simp [h]

theorem solTarget_ne_uninit (on : Bool) : solTarget on ≠ .uninit := by cases on <;> decide

theorem switched_sol_ne_uninit {cfg : Config} {k : Nat} {c : SubChan} {on : Bool} {now : Instant}
    (hs : c.sol ≠ .uninit) : (switched cfg k c on now).1.sol ≠ .uninit := by
  obtain h | h | h | h := switched_cases cfg k c on now <;> simp [h, hs, solTarget_ne_uninit]

variable {i : Instr} {s t : State}

theorem Effect.cfg_eq (h : Effect i s t) : t.cfg = s.cfg := by cases h <;> simp

theorem Effect.cycleN_eq (h : Effect i s t) : t.cycleN = s.cycleN := by cases h <;> simp

theorem Effect.stage_eq (h : Effect i s t) : t.stage = s.stage := by cases h <;> simp

theorem Effect.vNow_writer (h : Effect i s t) :
    i = .vsample ∨ t.vNow = s.vNow ∧ t.vNowWritten = s.vNowWritten := by cases h <;> simp

theorem Effect.filter_writer (h : Effect i s t) :
    i = .vsampleFilt ∨ t.emaState = s.emaState ∧ t.vFilt = s.vFilt ∧ t.vFiltWritten = s.vFiltWritten := by
  cases h <;> simp

theorem Effect.frame_writer (h : Effect i s t) : i = .fetchFrame ∨ t.frame = s.frame ∧ t.pending = s.pending := by
  cases h <;> simp

theorem Effect.duty_writer (h : Effect i s t) : i = .decode ∨ t.duty = s.duty := by cases h <;> simp

theorem Effect.powerEn_writer (h : Effect i s t) :
    (i = .powerEnable ∨ i = .startupGate ∨ i = .configure) ∨ t.powerEn = s.powerEn := by cases h <;> simp

theorem Effect.phase_writer (h : Effect i s t) : (i = .startupGate ∨ i = .configure) ∨ t.phase = s.phase := by
  cases h <;> simp

/-- What an operation can do to the main file: nothing, one channel replaced by MAIN_DRIVE's rule, or
CONFIGURE's reset of every output. -/
theorem Effect.mains_cases (h : Effect i s t) :
    t.mains = s.mains
      ∨ (∃ m d c d1, i = .mainDrive m d ∧ s.mains[m]? = some c ∧ d1 = slewLimit d c.prev s.cfg.dutyDiffMax
          ∧ t.mains = s.mains.set m ⟨d1, mainLevel s.cfg d1 s.vNow, dirOf d1⟩)
      ∨ (i = .configure ∧ t.mains = s.mains.map fun c => { c with level := 0, dir := .nonneg }) := by
  cases h with
  | mainMove m d _ c hc _ =>
    refine .inr (.inl ⟨m, d, c, _, rfl, hc, rfl, ?_⟩)
    rw [State.applyMain_eq _ m _ c (by simpa using hc)]
    rfl
  | configureGate => exact .inr (.inr ⟨rfl, rfl⟩)
  | configureLoop => exact .inr (.inr ⟨rfl, rfl⟩)
  | _ => exact .inl (by simp)

theorem Effect.mains_writer (h : Effect i s t) :
    (i = .configure ∨ ∃ m d, i = .mainDrive m d) ∨ t.mains = s.mains := by
  obtain eq | ⟨m, d, -, -, rfl, -⟩ | ⟨rfl, -⟩ := h.mains_cases
  exacts [.inr eq, .inl (.inr ⟨m, d, rfl⟩), .inl (.inl rfl)]

theorem Effect.mainPrev_writer (h : Effect i s t) :
    (∃ m d, i = .mainDrive m d) ∨ t.mains.map (·.prev) = s.mains.map (·.prev) := by
  cases h <;> simp [Function.comp_def]

/-- MAIN_DRIVE leaves the other main channels (10_state R40). -/
theorem Effect.mains_other {m m' : Nat} {d : Int} (h : Effect (.mainDrive m d) s t) (hm : m' ≠ m) :
    t.mains[m']? = s.mains[m']? := by
  obtain eq | ⟨_, _, _, _, ⟨⟩, -, -, eq⟩ | ⟨⟨⟩, -⟩ := h.mains_cases
  · rw [eq]
  · rw [eq, List.getElem?_set_ne hm.symm]

/-- Events that write the pins of sub channel `k`, if at all, to the rest level. -/
def subWritesRest (cfg : Config) (k : Nat) (es : List Event) : Prop :=
  ∀ x l, Event.pinWrite (.sub k x) l ∈ es → l = restLevel cfg

theorem subWritesRest_configureEvents (cfg : Config) (k : Nat) : subWritesRest cfg k (configureEvents cfg) := by
  intro x l h
  rw [configureEvents_eq, List.mem_append] at h
  simp only [configureMainEvents, configureSubEvents, List.mem_flatMap, List.mem_cons, List.not_mem_nil,
    Event.pinWrite.injEq, reduceCtorEq] at h
  grind

theorem subWritesRest_movedSubEvents_of_ne {j k : Nat} (h : k ≠ j) (cfg cfg' : Config) (v : Volts)
    (c : SubChan) (d1 : Int) : subWritesRest cfg k (movedSubEvents cfg' v j c d1) := by
  by_cases hr : reverses c.prev d1 = true <;> simp [subWritesRest, movedSubEvents, hr, h]

theorem subWritesRest_switched_of_ne {j k : Nat} (h : k ≠ j) (cfg cfg' : Config) (c : SubChan)
    (on : Bool) (now : Instant) : subWritesRest cfg k (switched cfg' j c on now).2 := by
  obtain h' | h' | h' | h' := switched_cases cfg' j c on now <;> cases on <;>
    simp [subWritesRest, patternEvents, h', h]

/-- What an operation can do to the sub file and the pins of its channels: nothing, SUB_MOTOR's rule or
SOLENOID_SWITCH's on one channel, or CONFIGURE's reset of every pin. -/
theorem Effect.subs_cases (h : Effect i s t) : ∃ new, t.events = s.events ++ new ∧
    (t.subs = s.subs ∧ (∀ k, subWritesRest s.cfg k new)
      ∨ (∃ k d c, runsMotor s.cfg k d i ∧ s.subs[k]? = some c
          ∧ t.subs = s.subs.set k (movedSub s.cfg s.vNow c (slewLimit d c.prev s.cfg.dutyDiffMax))
          ∧ new = movedSubEvents s.cfg s.vNow k c (slewLimit d c.prev s.cfg.dutyDiffMax))
      ∨ (∃ k on c, runsSolenoid s.cfg k on i ∧ s.subs[k]? = some c
          ∧ t.subs = s.subs.set k (switched s.cfg k c on s.nextNow).1 ∧ new = (switched s.cfg k c on s.nextNow).2
          ∧ t.env.lastNow = s.nextNow)
      ∨ (i = .configure ∧ (∀ k, subWritesRest s.cfg k new)
          ∧ t.subs = s.subs.map fun c => { c with levelA := restLevel s.cfg, levelB := restLevel s.cfg })) := by
  cases h with
  | mainMove => exact ⟨_, List.append_assoc .., .inl ⟨rfl, by simp [subWritesRest]⟩⟩
  | subMove k d _ _ c hi hc _ =>
    rw [State.applySub_eq _ k c _ (by simpa using hc)]
    exact ⟨_, rfl, .inr (.inl ⟨k, d, c, hi, hc, rfl, rfl⟩)⟩
  | solenoid k on _ _ c hi hc =>
    rw [State.solenoidAt_eq _ k c _ _ (by simpa using hc)]
    exact ⟨_, rfl, .inr (.inr (.inl ⟨k, on, c, hi, hc, rfl, rfl, rfl⟩))⟩
  | configureGate => exact ⟨_, rfl, .inr (.inr (.inr ⟨rfl, subWritesRest_configureEvents _, rfl⟩))⟩
  | configureLoop =>
    refine ⟨_, List.append_assoc .., .inr (.inr (.inr ⟨rfl, fun k x l hl => ?_, rfl⟩))⟩
    exact subWritesRest_configureEvents s.cfg k x l (by simpa using hl)
  | gatePass => exact ⟨_, rfl, .inl ⟨rfl, by simp [subWritesRest]⟩⟩
  | power => exact ⟨_, rfl, .inl ⟨rfl, by simp [subWritesRest]⟩⟩
  | _ => exact ⟨[], (List.append_nil _).symm, .inl ⟨rfl, by simp [subWritesRest]⟩⟩

theorem Effect.motorRegisters_writer (h : Effect i s t) : (∃ k d, i = .subMotor k d ∨ i = .subDispatch k d)
    ∨ t.subs.map (·.prev) = s.subs.map (·.prev) ∧ t.subs.map (·.active) = s.subs.map (·.active) := by
  obtain ⟨-, -, ⟨subs, -⟩ | ⟨k, d, _, run, -⟩ | ⟨k, on, c, -, hc, subs, -⟩ | ⟨-, -, subs⟩⟩ := h.subs_cases
  · exact .inr (by simp [subs])
  · exact .inl ⟨k, d, run.form⟩
  · exact .inr (by simp [subs, map_set_of_eq hc])
  · exact .inr (by simp [subs])

theorem Effect.solenoidRegisters_writer (h : Effect i s t) :
    (∃ k d on, i = .subSolOn k ∨ i = .subSolOff k ∨ i = .solenoidSwitch k on ∨ i = .subDispatch k d)
      ∨ t.subs.map (·.sol) = s.subs.map (·.sol) ∧ t.subs.map (·.t0) = s.subs.map (·.t0) := by
  obtain ⟨-, -, ⟨subs, -⟩ | ⟨k, d, c, -, hc, subs, -⟩ | ⟨k, on, _, run, -⟩ | ⟨-, -, subs⟩⟩ := h.subs_cases
  · exact .inr (by simp [subs])
  · exact .inr (by simp [subs, map_set_of_eq hc])
  · obtain ⟨d, form⟩ := run.form
    exact .inl ⟨k, d, on, form⟩
  · exact .inr (by simp [subs])

theorem Effect.subs_writer (h : Effect i s t) : (i = .configure ∨ ∃ k, onSubChannel k i) ∨ t.subs = s.subs := by
  obtain ⟨-, -, ⟨subs, -⟩ | ⟨k, _, _, run, -⟩ | ⟨k, _, _, run, -⟩ | ⟨rfl, -⟩⟩ := h.subs_cases
  exacts [.inr subs, .inl (.inr ⟨k, run.targets⟩), .inl (.inr ⟨k, run.targets⟩), .inl (.inl rfl)]

/-- An operation on a sub channel leaves the other sub channels (10_state R40). -/
theorem Effect.subs_other {k k' : Nat} (h : Effect i s t) (hi : onSubChannel k i) (hk : k' ≠ k) :
    t.subs[k']? = s.subs[k']? := by
  obtain ⟨-, -, ⟨subs, -⟩ | ⟨j, _, _, run, -, subs, -⟩ | ⟨j, _, _, run, -, subs, -⟩ | ⟨rfl, -⟩⟩ := h.subs_cases
  · rw [subs]
  · rw [subs, List.getElem?_set_ne (run.targets.unique hi ▸ hk.symm)]
  · rw [subs, List.getElem?_set_ne (run.targets.unique hi ▸ hk.symm)]
  · simp [onSubChannel] at hi

/-- What an operation can do to one sub channel: at most a reset of its pins to rest, or SUB_MOTOR's rule
or SOLENOID_SWITCH's; with the events that it adds to the record. -/
theorem Effect.subChannel_cases {k : Nat} {c : SubChan} (h : Effect i s t) (hc : s.subs[k]? = some c) :
    ∃ c' new, t.subs[k]? = some c' ∧ t.events = s.events ++ new ∧
      (subWritesRest s.cfg k new
          ∧ (c' = c ∨ c' = { c with levelA := restLevel s.cfg, levelB := restLevel s.cfg })
        ∨ (∃ d d1, runsMotor s.cfg k d i ∧ c' = movedSub s.cfg s.vNow c d1
          ∧ new = movedSubEvents s.cfg s.vNow k c d1)
        ∨ ∃ on, runsSolenoid s.cfg k on i ∧ c' = (switched s.cfg k c on s.nextNow).1
          ∧ new = (switched s.cfg k c on s.nextNow).2) := by
  obtain ⟨new, events, ⟨subs, rest⟩ | ⟨j, d, cj, run, hj, subs, rfl⟩ | ⟨j, on, cj, run, hj, subs, rfl, -⟩ |
    ⟨-, rest, subs⟩⟩ := h.subs_cases
  · exact ⟨c, new, by rw [subs, hc], events, .inl ⟨rest k, .inl rfl⟩⟩
  · obtain rfl | hjk := eq_or_ne j k
    · cases hj.symm.trans hc
      exact ⟨_, _, by rw [subs, getElem?_set_at _ _ _ _ hc], events, .inr (.inl ⟨d, _, run, rfl, rfl⟩)⟩
    · exact ⟨c, _, by rw [subs, List.getElem?_set_ne hjk, hc], events,
        .inl ⟨subWritesRest_movedSubEvents_of_ne hjk.symm _ _ _ _ _, .inl rfl⟩⟩
  · obtain rfl | hjk := eq_or_ne j k
    · cases hj.symm.trans hc
      exact ⟨_, _, by rw [subs, getElem?_set_at _ _ _ _ hc], events, .inr (.inr ⟨on, run, rfl, rfl⟩)⟩
    · exact ⟨c, _, by rw [subs, List.getElem?_set_ne hjk, hc], events,
        .inl ⟨subWritesRest_switched_of_ne hjk.symm _ _ _ _ _, .inl rfl⟩⟩
  · exact ⟨_, new, by rw [subs, List.getElem?_map, hc]; rfl, events, .inl ⟨rest k, .inr rfl⟩⟩

end Writers

section RangeFlag

/-- Whether an operation raises `F_RANGE`: a MAIN_DRIVE or a SUB_MOTOR on an out-of-range duty, dispatched
or not (10_state R34, 60_exceptions R211). -/
def raisesRange (cfg : Config) : Instr → Bool
  | .mainDrive _ d => outOfRange cfg d
  | .subMotor _ d => outOfRange cfg d
  | .subDispatch _ d => !decide (isSentinel cfg d) && outOfRange cfg d
  | _ => false

theorem raisesRange_of_runsMotor {cfg : Config} {k : Nat} {d : Int} {i : Instr} (h : runsMotor cfg k d i) :
    raisesRange cfg i = outOfRange cfg d := by
  obtain rfl | ⟨rfl, hd⟩ := h <;> simp [raisesRange, *]

theorem raisesRange_of_runsSolenoid {cfg : Config} {k : Nat} {on : Bool} {i : Instr}
    (h : runsSolenoid cfg k on i) : raisesRange cfg i = false := by
  obtain rfl | ⟨rfl, -⟩ | ⟨rfl, -⟩ | ⟨d, rfl, hd, -⟩ := h <;> simp [raisesRange, *]

variable {i : Instr} {s t : State}

/-- One operation raises the flag or leaves it (10_state R34). -/
theorem Effect.fRange_eq (h : Effect i s t) : t.fRange = (s.fRange || raisesRange s.cfg i) := by
  cases h with
  | subFast k d i s c hi => rw [raisesRange_of_runsMotor hi]; rfl
  | subMove k d i s c hi => rw [raisesRange_of_runsMotor hi]; simp
  | solenoid k on i s c hi => rw [raisesRange_of_runsSolenoid hi]; simp
  | _ => simp [raisesRange]

/-- A dispatched duty that is no sentinel is out of range exactly if it lies beyond the sentinels. -/
theorem raisesRange_subDispatch (cfg : Config) (k : Nat) (d : Int) :
    raisesRange cfg (.subDispatch k d) = decide (cfg.dutyMax + 1 < (d.natAbs : Int)) := by
  rw [Bool.eq_iff_iff]
  simp only [raisesRange, outOfRange, isSentinel, Bool.and_eq_true, Bool.not_eq_true', decide_eq_true_eq,
    decide_eq_false_iff_not]
  omega

end RangeFlag

section SingleOperations
/-! What holds of every operation: CONTROL_CYCLE is a sequence of the others (`exec_rel`). -/

/-- Settles O53: no effect writes the configuration. -/
theorem configurationIsReadOnly : Obligations.ConfigurationIsReadOnly :=
  exec_rel (fun s t => t.cfg = s.cfg) (fun _ => rfl) (fun _ _ _ h₁ h₂ => h₂.trans h₁) (fun _ _ _ => Effect.cfg_eq)
    fun _ => rfl

theorem Effect.powerEn_mono {i : Instr} {s t : State} (h : Effect i s t) (hp : s.powerEn = true) :
    t.powerEn = true := by
  cases h <;> simp [hp]

/-- Settles O39: an operation keeps `POWER_EN` or sets it. -/
theorem powerEnableAssertsForGood : Obligations.PowerEnableAssertsForGood :=
  ⟨fun _ => rfl, exec_rel (fun s t => s.powerEn = true → t.powerEn = true) (fun _ => id)
    (fun _ _ _ h₁ h₂ => h₂ ∘ h₁) (fun _ _ _ => Effect.powerEn_mono) fun _ => id⟩

theorem Effect.lastNow_mono {i : Instr} {s t : State} (h : Effect i s t) : s.env.lastNow ≤ t.env.lastNow := by
  cases h with
  | solenoid => simpa using s.drawNow_le
  | _ => simp [State.envAfterFetch]

/-- Settles O55: only a solenoid request draws the clock, and a draw never answers below the last one. -/
theorem clockNeverDecreases : Obligations.ClockNeverDecreases :=
  exec_rel (fun s t => s.env.lastNow ≤ t.env.lastNow) (fun _ => BitVec.le_refl _) (fun _ _ _ => BitVec.le_trans)
    (fun _ _ _ => Effect.lastNow_mono) fun _ => BitVec.le_refl _

/-- Settles O51: an operation raises the flag or leaves it, so none clears it. -/
theorem rangeFlagIsStickyAndExact : Obligations.RangeFlagIsStickyAndExact := by
  refine ⟨fun _ => rfl, fun i s t h => ⟨?_, fun hi => ?_⟩⟩
  · exact exec_rel (fun s t => s.fRange = true → t.fRange = true) (fun _ => id) (fun _ _ _ h₁ h₂ => h₂ ∘ h₁)
      (fun _ _ _ h hs => by simp [h.fRange_eq, hs]) (fun _ => id) i s t h
  · rw [(exec_effect i s t hi h).fRange_eq]
    cases i with
    | subDispatch k d => rw [raisesRange_subDispatch]
    | _ => rfl

theorem fRange_writer_of_raisesRange {cfg : Config} {i : Instr} (h : raisesRange cfg i = true) :
    ∃ k d, i = .mainDrive k d ∨ i = .subMotor k d ∨ i = .subDispatch k d := by
  cases i <;> simp_all [raisesRange]

/-- Settles O54: the writers of each register, and the channel frames, one lemma each. -/
theorem registersHaveTheirWriters : Obligations.RegistersHaveTheirWriters := by
  intro i s t h hi
  have e := exec_effect i s t hi h
  refine ⟨e.cycleN_eq, fun ne => e.vNow_writer.resolve_right (not_and_or.mpr ne),
    fun ne => e.filter_writer.resolve_right (not_and_or.mpr (ne.imp_right not_and_or.mpr)), fun ne => ?_,
    fun ne => e.frame_writer.resolve_right (not_and_or.mpr ne), e.powerEn_writer.resolve_right,
    e.phase_writer.resolve_right, e.mainPrev_writer.resolve_right, e.mains_writer.resolve_right,
    fun ne => e.motorRegisters_writer.resolve_right (not_and_or.mpr ne),
    fun ne => e.solenoidRegisters_writer.resolve_right (not_and_or.mpr ne),
    fun ne => e.subs_writer.resolve_right fun eq => ne (by rw [eq]), ?_, fun k on => ⟨?_, fun _ => e.subs_other on⟩⟩
  · apply fRange_writer_of_raisesRange (cfg := s.cfg)
    by_contra off
    exact ne (by simp [e.fRange_eq, off])
  · rintro m d rfl
    exact ⟨e.subs_writer.resolve_left (by simp [onSubChannel]), fun _ => e.mains_other⟩
  · refine e.mains_writer.resolve_left ?_
    obtain rfl | rfl | ⟨_, rfl⟩ | ⟨_, rfl⟩ | ⟨_, rfl⟩ := on <;> simp

/-- Settles O60, by the definition of the reset state. -/
theorem resetValues : Obligations.ResetValues :=
  fun _ => ⟨rfl, rfl, rfl, rfl, rfl, rfl, rfl, rfl, rfl, rfl, fun _ => rfl⟩

end SingleOperations

section Sequencer
/-! What the sequencer issues and how it moves on (44_decoder_and_cycle R182, 70_reset_and_hazards R230). -/

/-- The operation that the sequencer issues, with the place where it stands. -/
inductive Issues (s : State) : Instr → Prop
  | configure (hp : s.phase = .configure) : Issues s .configure
  | gate (hp : s.phase = .gate) : Issues s .startupGate
  | sample (hp : s.phase = .loop) (hs : s.stage = .vsample) : Issues s .vsample
  | filter (hp : s.phase = .loop) (hs : s.stage = .vsampleFilt) : Issues s .vsampleFilt
  | fetch (hp : s.phase = .loop) (hs : s.stage = .fetch) : Issues s .fetchFrame
  | decode (hp : s.phase = .loop) (hs : s.stage = .decode) : Issues s .decode
  | slot (n : Nat) (c : Slot) (d : Int) (hp : s.phase = .loop) (hs : s.stage = .slot n)
      (hc : slotAt s.cfg n = some c) (hd : s.duty[n]? = some d) : Issues s (select s.cfg c d)
  | sleep (hp : s.phase = .loop) (hs : s.stage = .sleep) : Issues s .sleep

theorem issues_of_issued {s : State} {i : Instr} (h : issued s = .ok i) : Issues s i := by
  unfold issued at h
  split at h
  · cases h; exact .configure ‹_›
  · cases h; exact .gate ‹_›
  · split at h
    · cases h; exact .sample ‹_› ‹_›
    · cases h; exact .filter ‹_› ‹_›
    · cases h; exact .fetch ‹_› ‹_›
    · cases h; exact .decode ‹_› ‹_›
    · rename_i n hs
      unfold slotOperation at h
      split at h
      · cases h; exact .slot n _ _ ‹_› hs ‹_› ‹_›
      · cases h
    · cases h; exact .sleep ‹_› ‹_›

/-- A slot's operation is on the channel of the slot (30_encoding R83, R84). -/
theorem select_cases (cfg : Config) (c : Slot) (d : Int) :
    (∃ m, c = .main m ∧ select cfg c d = .mainDrive m d)
      ∨ ∃ k, c = .sub k ∧ (select cfg c d = .subSolOn k ∨ select cfg c d = .subSolOff k
          ∨ select cfg c d = .subMotor k d ∧ ¬ isSentinel cfg d) := by
  cases c with
  | main m => exact .inl ⟨m, rfl, rfl⟩
  | sub k =>
    refine .inr ⟨k, rfl, ?_⟩
    obtain ⟨-, -, h⟩ | ⟨-, -, h⟩ | ⟨hd, h⟩ := selectSub_cases cfg k d
    exacts [.inl h, .inr (.inl h), .inr (.inr ⟨h, hd⟩)]

variable {i : Instr} {s t : State}

/-- What a step does, with the operation issued as a case of the sequence. -/
theorem step_issues (h : step s = .next t) :
    ∃ i u, Issues s i ∧ issued s = .ok i ∧ Effect i s u ∧ t = advance s u := by
  obtain ⟨-, i, u, hi, -, e, rfl⟩ := step_effect s t h
  exact ⟨i, u, issues_of_issued hi, hi, e, rfl⟩

/-- The sequencer writes its own stage and the count of cycles, and nothing else (log 8). -/
theorem advance_eq (s t : State) :
    advance s t = { t with stage := (advance s t).stage, cycleN := (advance s t).cycleN } := by
  unfold advance
  split <;> [rfl; rfl; split <;> rfl]

@[simp] theorem advance_cfg (s t : State) : (advance s t).cfg = t.cfg := by rw [advance_eq]
@[simp] theorem advance_phase (s t : State) : (advance s t).phase = t.phase := by rw [advance_eq]
@[simp] theorem advance_mains (s t : State) : (advance s t).mains = t.mains := by rw [advance_eq]
@[simp] theorem advance_subs (s t : State) : (advance s t).subs = t.subs := by rw [advance_eq]
@[simp] theorem advance_vNow (s t : State) : (advance s t).vNow = t.vNow := by rw [advance_eq]
@[simp] theorem advance_vNowWritten (s t : State) : (advance s t).vNowWritten = t.vNowWritten := by rw [advance_eq]
@[simp] theorem advance_vFilt (s t : State) : (advance s t).vFilt = t.vFilt := by rw [advance_eq]
@[simp] theorem advance_powerEn (s t : State) : (advance s t).powerEn = t.powerEn := by rw [advance_eq]
@[simp] theorem advance_frame (s t : State) : (advance s t).frame = t.frame := by rw [advance_eq]
@[simp] theorem advance_duty (s t : State) : (advance s t).duty = t.duty := by rw [advance_eq]
@[simp] theorem advance_events (s t : State) : (advance s t).events = t.events := by rw [advance_eq]
@[simp] theorem advance_env (s t : State) : (advance s t).env = t.env := by rw [advance_eq]

theorem advance_stage_loop (h : s.phase = .loop) (t : State) :
    (advance s t).stage = nextStage s.cfg s.cycleN s.stage := by
  rw [advance_loop s t h]
  cases s.stage <;> rfl

theorem Issues.of_configure (h : Issues s i) (hp : s.phase = .configure) : i = .configure := by
  cases h <;> simp_all

theorem Issues.of_gate (h : Issues s i) (hp : s.phase = .gate) : i = .startupGate := by
  cases h <;> simp_all

/-- In the loop the sequencer issues none of the startup operations (70_reset_and_hazards R230). -/
theorem Issues.of_loop (h : Issues s i) (hp : s.phase = .loop) :
    i ≠ .configure ∧ i ≠ .startupGate ∧ i ≠ .powerEnable := by
  cases h with
  | slot n c d =>
    obtain ⟨m, -, h⟩ | ⟨k, -, h | h | ⟨h, -⟩⟩ := select_cases s.cfg c d <;> simp [h]
  | configure h => simp [h] at hp
  | gate h => simp [h] at hp
  | _ => simp

/-- What CONFIGURE can do (44_decoder_and_cycle R186). -/
theorem Effect.configure_cases (h : Effect .configure s t) :
    s.cfg.gateEn = true ∧ t = s.configureOutputs.setPhase .gate
      ∨ s.cfg.gateEn = false ∧ t = (s.configureOutputs.setPhase .loop).assertPower := by
  cases h with
  | configureGate _ hg => exact .inl ⟨hg, rfl⟩
  | configureLoop _ hg => exact .inr ⟨hg, rfl⟩
  | subFast _ _ _ _ _ run | subMove _ _ _ _ _ run | solenoid _ _ _ _ _ run =>
    exact absurd run.targets (by simp [onSubChannel])

/-- What a poll of the startup gate can do (44_decoder_and_cycle R187). -/
theorem Effect.startupGate_cases (h : Effect .startupGate s t) :
    t = s.drawRawGate.2.assertPower.setPhase .loop ∨ t = s.drawRawGate.2 := by
  cases h with
  | gatePass => exact .inl rfl
  | gateWait => exact .inr rfl
  | subFast _ _ _ _ _ run | subMove _ _ _ _ _ run | solenoid _ _ _ _ _ run =>
    exact absurd run.targets (by simp [onSubChannel])

end Sequencer

/-- Settles O50: CONFIGURE and a passing poll set `PHASE`, and the loop issues neither. -/
theorem phaseNeverGoesBack : Obligations.PhaseNeverGoesBack := by
  intro s t h
  obtain ⟨i, u, issues, -, effect, rfl⟩ := step_issues h
  rw [advance_phase]
  refine ⟨fun hp => ?_, fun hp => ?_, fun hp => ?_⟩
  · cases issues.of_configure hp
    obtain ⟨hg, rfl⟩ | ⟨hg, rfl⟩ := effect.configure_cases <;> simp [hg]
  · cases issues.of_gate hp
    obtain rfl | rfl := effect.startupGate_cases <;> simp [hp]
  · obtain ⟨hc, hg, -⟩ := issues.of_loop hp
    rw [effect.phase_writer.resolve_left (by simp [hc, hg]), hp]

theorem Effect.sol_ne_uninit {i : Instr} {s t : State} {k : Nat} {c : SubChan} (h : Effect i s t)
    (hc : s.subs[k]? = some c) (hs : c.sol ≠ .uninit) : ∃ c', t.subs[k]? = some c' ∧ c'.sol ≠ .uninit := by
  obtain ⟨c', new, hc', -, ⟨-, rfl | rfl⟩ | ⟨-, d1, -, rfl, -⟩ | ⟨on, -, rfl, -⟩⟩ := h.subChannel_cases hc
  · exact ⟨_, hc', hs⟩
  · exact ⟨_, hc', hs⟩
  · exact ⟨_, hc', by rwa [movedSub_sol]⟩
  · exact ⟨_, hc', switched_sol_ne_uninit hs⟩

/-- Settles O56: SUB_MOTOR's rule keeps `SOL_STATE`, and SOLENOID_SWITCH's writes a target, which is not Uninit. -/
theorem solenoidNeverReturnsToUninit : Obligations.SolenoidNeverReturnsToUninit := by
  intro s t k c h hc hs
  obtain ⟨i, u, -, -, effect, rfl⟩ := step_issues h
  rw [advance_subs]
  exact effect.sol_ne_uninit hc hs

section Invariant
/-! The invariant in two parts: the registers, which every well-formed operation keeps in order, and the
sequencer's place, which follows from the order of its operations (44_decoder_and_cycle R182). -/

theorem dutyDiffMax_nonneg {cfg : Config} (legal : cfg.legal = true) : 0 ≤ cfg.dutyDiffMax := by
  obtain ⟨-, -, diff, -⟩ := cfg.legal_iff.mp legal
  exact diff

/-- A slew-limited duty lies between two 16-bit duties (41_slew_limiter R121). -/
theorem slewLimit_inWordRange {req prev limit : Int} (hl : 0 ≤ limit) (hr : inWordRange req)
    (hp : inWordRange prev) : inWordRange (slewLimit req prev limit) := by
  simp only [inWordRange] at *
  obtain ⟨-, h⟩ | ⟨lt, h⟩ | ⟨lt, h⟩ := slewLimit_cases req prev limit hl <;> omega

theorem MainChan.ok_of_driven {cfg : Config} (legal : cfg.legal = true) {d1 : Int} (hd : inWordRange d1) (v : Volts) :
    MainChan.Ok cfg ⟨d1, mainLevel cfg d1 v, dirOf d1⟩ :=
  ⟨hd, (mainLevel_bounds cfg d1 v legal).1, (mainLevel_bounds cfg d1 v legal).2, rfl⟩

/-- CONFIGURE writes the direction of duty 0, so a channel it resets must have been given no other duty. -/
theorem MainChan.ok_of_configured {cfg : Config} (legal : cfg.legal = true) {c : MainChan} (hp : c.prev = 0) :
    MainChan.Ok cfg { c with level := 0, dir := .nonneg } := by
  obtain ⟨-, -, -, resolution, -⟩ := cfg.legal_iff.mp legal
  exact ⟨by simp [hp, inWordRange], le_rfl, by dsimp only; omega, by simp [hp, dirOf]⟩

theorem SubChan.Ok.mono {cfg : Config} {now now' : Instant} {c : SubChan} (h : c.Ok cfg now) (le : now ≤ now') :
    c.Ok cfg now' := { h with t0Past := BitVec.le_trans h.t0Past le }

/-- New pin levels within the range keep a sub channel's registers in order. -/
theorem SubChan.Ok.with_levels {cfg : Config} {now : Instant} {c : SubChan} (h : c.Ok cfg now) {a b : Int}
    (ha : 0 ≤ a ∧ a ≤ cfg.pwmResolution) (hb : 0 ≤ b ∧ b ≤ cfg.pwmResolution) :
    SubChan.Ok cfg now { c with levelA := a, levelB := b } :=
  { h with aLow := ha.1, aHigh := ha.2, bLow := hb.1, bHigh := hb.2 }

theorem SubChan.Ok.withLevel {cfg : Config} {now : Instant} {c : SubChan} (h : c.Ok cfg now) (x : Side) {l : Int}
    (hl : 0 ≤ l ∧ l ≤ cfg.pwmResolution) : (c.withLevel x l).Ok cfg now := by
  cases x
  · exact h.with_levels hl ⟨h.bLow, h.bHigh⟩
  · exact h.with_levels ⟨h.aLow, h.aHigh⟩ hl

theorem restLevel_bounds {cfg : Config} (legal : cfg.legal = true) :
    0 ≤ restLevel cfg ∧ restLevel cfg ≤ cfg.pwmResolution := by
  obtain ⟨-, -, -, resolution, -⟩ := cfg.legal_iff.mp legal
  exact ⟨by simp only [restLevel]; omega, le_rfl⟩

/-- Two duties of one sign select the same side (43_sub_channel R152). -/
theorem sideOf_of_sign_eq {d e : Int} (h : d.sign = e.sign) : sideOf d = sideOf e := by
  simp only [sideOf, ← Int.sign_eq_one_iff_pos, h]

/-- After the hand-over the active side is the one that the duty selects (43_sub_channel R152). -/
theorem activeAfter_eq {c : SubChan} (h : c.active = sideOf c.prev) (d1 : Int) : activeAfter c d1 = sideOf d1 := by
  unfold activeAfter
  split
  · rfl
  · rename_i same
    have sign : d1.sign = c.prev.sign := by simpa [reverses] using same
    rw [h, sideOf_of_sign_eq sign]

theorem SubChan.Ok.moved {cfg : Config} {now : Instant} {c : SubChan} (h : c.Ok cfg now) (legal : cfg.legal = true)
    {d1 : Int} (hd : inWordRange d1) (v : Volts) : (movedSub cfg v c d1).Ok cfg now := by
  have base : (if reverses c.prev d1 then c.withLevel c.active (restLevel cfg) else c).Ok cfg now := by
    split
    · exact h.withLevel _ (restLevel_bounds legal)
    · exact h
  rw [movedSub_eq]
  exact { base.withLevel (activeAfter c d1) (subLevel_bounds cfg d1 v legal) with
    prevFits := hd, activeFollows := activeAfter_eq h.activeFollows d1 }

theorem SubChan.Ok.pattern {cfg : Config} {now : Instant} {c : SubChan} (h : c.Ok cfg now) (legal : cfg.legal = true)
    (on : Bool) : (patternOf cfg c on).Ok cfg now := by
  have rest := restLevel_bounds legal
  have low : 0 ≤ (0 : Int) ∧ 0 ≤ cfg.pwmResolution := ⟨le_rfl, rest.1⟩
  cases on
  · exact h.with_levels low rest
  · exact h.with_levels rest low

/-- An accepted transition is as late as the clock; every other write keeps the timer (43_sub_channel R153). -/
theorem SubChan.Ok.switched {cfg : Config} {last now : Instant} {c : SubChan} (h : c.Ok cfg last)
    (legal : cfg.legal = true) (le : last ≤ now) (k : Nat) (on : Bool) :
    (Machine.switched cfg k c on now).1.Ok cfg now := by
  have h := h.mono le
  obtain eq | eq | eq | eq := switched_cases cfg k c on now <;> rw [eq]
  · exact h
  · exact h.pattern legal on
  · exact h.with_levels (restLevel_bounds legal) (restLevel_bounds legal)
  · exact { h.pattern legal on with
      t0Past := BitVec.le_refl _
      t0Fresh := fun uninit => absurd uninit (solTarget_ne_uninit on) }

/-- The registers' part of the invariant, which holds whatever the sequencer does (10_state R23 to R31). -/
structure State.RegistersOk (s : State) : Prop where
  mainFile : s.mains.length = s.cfg.numMain
  subFile : s.subs.length = s.cfg.numSub
  mainsOk : ∀ c ∈ s.mains, c.Ok s.cfg
  subsOk : ∀ c ∈ s.subs, c.Ok s.cfg s.env.lastNow
  frameOk : memWf s.frameSize s.frame = true
  vNowFloor : s.cfg.vMin ≤ s.vNow
  vFiltFloor : s.cfg.vMin ≤ s.vFilt

theorem State.Inv.registersOk {s : State} (h : s.Inv) : s.RegistersOk :=
  ⟨h.mainFile, h.subFile, h.mainsOk, h.subsOk, h.frameOk, h.vNowFloor, h.vFiltFloor⟩

theorem runsMotor.inWordRange {cfg : Config} {k : Nat} {d : Int} {i : Instr} (h : runsMotor cfg k d i)
    (wf : i.wf cfg = true) : inWordRange d := by
  obtain rfl | rfl := h.form <;> simp [Instr.wf] at wf
  exacts [wf.1.2, wf.2]

section Keeps

variable {i : Instr} {s t : State} (h : Effect i s t) (ok : s.RegistersOk)
include h ok

theorem Effect.keeps_mainFile : t.mains.length = t.cfg.numMain := by
  rw [h.cfg_eq, ← ok.mainFile]
  obtain eq | ⟨_, _, _, _, -, -, -, eq⟩ | ⟨-, eq⟩ := h.mains_cases <;> simp [eq]

theorem Effect.keeps_subFile : t.subs.length = t.cfg.numSub := by
  rw [h.cfg_eq, ← ok.subFile]
  obtain ⟨-, -, ⟨eq, -⟩ | ⟨_, _, _, -, -, eq, -⟩ | ⟨_, _, _, -, -, eq, -⟩ | ⟨-, -, eq⟩⟩ := h.subs_cases <;> simp [eq]

theorem Effect.keeps_mainsOk (legal : s.cfg.legal = true) (wf : i.wf s.cfg = true)
    (start : i = .configure → ∀ c ∈ s.mains, c.prev = 0) : ∀ c ∈ t.mains, c.Ok t.cfg := by
  rw [h.cfg_eq]
  obtain eq | ⟨m, d, c, d1, rfl, hc, rfl, eq⟩ | ⟨rfl, eq⟩ := h.mains_cases <;> rw [eq]
  · exact ok.mainsOk
  · have fits := (ok.mainsOk c (List.mem_of_getElem? hc)).prevFits
    have diff := dutyDiffMax_nonneg legal
    have asked : inWordRange d := by simp [Instr.wf] at wf; exact wf.2
    exact forall_mem_set ok.mainsOk (MainChan.ok_of_driven legal (slewLimit_inWordRange diff asked fits) _)
  · intro c hc
    obtain ⟨c, mem, rfl⟩ := List.mem_map.mp hc
    exact MainChan.ok_of_configured legal (start rfl c mem)

theorem Effect.keeps_subsOk (legal : s.cfg.legal = true) (wf : i.wf s.cfg = true) :
    ∀ c ∈ t.subs, c.Ok t.cfg t.env.lastNow := by
  rw [h.cfg_eq]
  have later : ∀ c ∈ s.subs, c.Ok s.cfg t.env.lastNow := fun c hc => (ok.subsOk c hc).mono h.lastNow_mono
  obtain ⟨-, -, ⟨eq, -⟩ | ⟨k, d, c, run, hc, eq, -⟩ | ⟨k, on, c, -, hc, eq, -, now⟩ | ⟨-, -, eq⟩⟩ := h.subs_cases <;>
    rw [eq]
  · exact later
  · have here := later c (List.mem_of_getElem? hc)
    have diff := dutyDiffMax_nonneg legal
    exact forall_mem_set later (here.moved legal (slewLimit_inWordRange diff (run.inWordRange wf) here.prevFits) _)
  · have here := ok.subsOk c (List.mem_of_getElem? hc)
    exact forall_mem_set later (by rw [now]; exact here.switched legal s.drawNow_le k on)
  · intro c hc
    obtain ⟨c, mem, rfl⟩ := List.mem_map.mp hc
    exact (later c mem).with_levels (restLevel_bounds legal) (restLevel_bounds legal)

theorem Effect.keeps_frameOk : memWf t.frameSize t.frame = true := by
  have size : t.frameSize = s.frameSize := by rw [State.frameSize, h.cfg_eq, State.frameSize]
  rw [size]
  cases h with
  | fetchNew s f newest lengths =>
    have length := lengths f (List.mem_of_getLast? newest)
    exact memOfBytes_wfFrom _ 0 f (by omega)
  | _ => simpa using ok.frameOk

theorem Effect.keeps_vNowFloor : t.cfg.vMin ≤ t.vNow := by
  cases h with
  | sample => exact le_max_right _ _
  | _ => simpa using ok.vNowFloor

theorem Effect.keeps_vFiltFloor : t.cfg.vMin ≤ t.vFilt := by
  cases h with
  | filter _ _ _ floored => exact floored
  | _ => simpa using ok.vFiltFloor

/-- A well-formed operation keeps the registers in order; CONFIGURE runs before any main channel has moved. -/
theorem Effect.keeps_registersOk (legal : s.cfg.legal = true) (wf : i.wf s.cfg = true)
    (start : i = .configure → ∀ c ∈ s.mains, c.prev = 0) : t.RegistersOk where
  mainFile := h.keeps_mainFile ok
  subFile := h.keeps_subFile ok
  mainsOk := h.keeps_mainsOk ok legal wf start
  subsOk := h.keeps_subsOk ok legal wf
  frameOk := h.keeps_frameOk ok
  vNowFloor := h.keeps_vNowFloor ok
  vFiltFloor := h.keeps_vFiltFloor ok

end Keeps

theorem slotAt_eq_main {cfg : Config} {n m : Nat} (h : slotAt cfg n = some (.main m)) : m < cfg.numMain := by
  unfold slotAt at h
  grind

theorem slotAt_eq_sub {cfg : Config} {n k : Nat} (h : slotAt cfg n = some (.sub k)) : k < cfg.numSub := by
  unfold slotAt Config.numWords at h
  grind

/-- A decoded duty is a 16-bit one (44_decoder_and_cycle R180). -/
theorem inWordRange_of_mem_frameDuties {s : State} {ds : List Int} {d : Int} (h : s.frameDuties = some ds)
    (hd : d ∈ ds) : inWordRange d := by
  rw [s.frameDuties_eq, Option.some.injEq] at h
  subst h
  obtain ⟨_, -, rfl⟩ := List.mem_map.mp hd
  exact sext16_inWordRange _

theorem select_wf {cfg : Config} {n : Nat} {c : Slot} {d : Int} (hc : slotAt cfg n = some c) (hd : inWordRange d) :
    (select cfg c d).wf cfg = true := by
  obtain ⟨m, rfl, h⟩ | ⟨k, rfl, h | h | ⟨h, plain⟩⟩ := select_cases cfg c d <;> rw [h]
  · simpa [Instr.wf] using ⟨slotAt_eq_main hc, hd⟩
  · simpa [Instr.wf] using slotAt_eq_sub hc
  · simpa [Instr.wf] using slotAt_eq_sub hc
  · have lt := slotAt_eq_sub hc
    simp only [Instr.wf, Bool.and_eq_true, Bool.not_eq_true', decide_eq_true_eq, decide_eq_false_iff_not]
    exact ⟨⟨lt, hd⟩, plain⟩

section Sequence

variable {i : Instr} {s t : State}

/-- The sequencer issues well-formed operations only: in a slot the duty is a decoded one. -/
theorem Issues.wf (h : Issues s i) (inv : s.Inv) : i.wf s.cfg = true := by
  cases h with
  | slot n c d _ hs hc hd =>
    exact select_wf hc (inWordRange_of_mem_frameDuties (inv.dutiesDecoded n hs) (List.mem_of_getElem? hd))
  | _ => rfl

/-- After a step the machine waits at the gate, without power, or it is in the loop, with power
(70_reset_and_hazards R230). -/
theorem Effect.gate_or_loop (h : Effect i s t) (hi : Issues s i) (inv : s.Inv) :
    s.phase ≠ .loop ∧ t.phase = .gate ∧ s.cfg.gateEn = true ∧ t.powerEn = false
      ∨ t.phase = .loop ∧ t.powerEn = true := by
  have power := inv.powerInLoop
  cases hp : s.phase with
  | configure =>
    cases hi.of_configure hp
    obtain ⟨gate, rfl⟩ | ⟨-, rfl⟩ := h.configure_cases <;> simp_all
  | gate =>
    cases hi.of_gate hp
    have gate := inv.gatePresent hp
    obtain rfl | rfl := h.startupGate_cases <;> simp_all
  | loop =>
    obtain ⟨hc, hg, hpw⟩ := hi.of_loop hp
    rw [h.phase_writer.resolve_left (by simp [hc, hg]), h.powerEn_writer.resolve_left (by simp [hc, hg, hpw])]
    simp_all

/-- Before the loop the sequencer stays at the first stage (log 8). -/
theorem Effect.stage_of_start (h : Effect i s t) (inv : s.Inv) (hp : s.phase ≠ .loop) :
    (advance s t).stage = .vsample := by
  rw [advance_start s t hp, h.stage_eq, inv.startStage hp]

theorem Effect.vNowWritten_mono (h : Effect i s t) (hw : s.vNowWritten = true) : t.vNowWritten = true := by
  cases h <;> simp [hw]

theorem Issues.phase_of_configure (h : Issues s .configure) : s.phase = .configure := by
  cases hp : s.phase with
  | configure => rfl
  | gate => simpa using h.of_gate hp
  | loop => exact absurd rfl (h.of_loop hp).1

theorem Issues.of_sample (h : Issues s i) (hp : s.phase = .loop) (hs : s.stage = .vsample) : i = .vsample := by
  cases h <;> simp_all

theorem Issues.of_decode (h : Issues s i) (hp : s.phase = .loop) (hs : s.stage = .decode) : i = .decode := by
  cases h <;> simp_all

/-- In a slot the sequencer issues a channel operation. -/
theorem Issues.of_slot {n : Nat} (h : Issues s i) (hp : s.phase = .loop) (hs : s.stage = .slot n) :
    i ≠ .decode ∧ i ≠ .fetchFrame := by
  cases h with
  | slot _ c d =>
    obtain ⟨m, -, h⟩ | ⟨k, -, h | h | ⟨h, -⟩⟩ := select_cases s.cfg c d <;> simp [h]
  | _ => simp_all

theorem Effect.vNowWritten_of_vsample (h : Effect .vsample s t) : t.vNowWritten = true := by
  cases h with
  | sample => rfl
  | subFast _ _ _ _ _ run | subMove _ _ _ _ _ run | solenoid _ _ _ _ _ run =>
    exact absurd run.targets (by simp [onSubChannel])

theorem Effect.duty_of_decode (h : Effect .decode s t) : t.frameDuties = some t.duty := by
  cases h with
  | decode _ ds eq => exact (State.frameDuties_congr s { s with duty := ds } rfl rfl).trans eq
  | subFast _ _ _ _ _ run | subMove _ _ _ _ _ run | solenoid _ _ _ _ _ run =>
    exact absurd run.targets (by simp [onSubChannel])

/-- `V_NOW` has been written at every stage after VSAMPLE (44_decoder_and_cycle R182). -/
theorem Effect.keeps_sampled (h : Effect i s t) (hi : Issues s i) (inv : s.Inv)
    (hs : (advance s t).stage ≠ .vsample) : t.vNowWritten = true := by
  by_cases first : s.stage = .vsample
  · have hp : s.phase = .loop := by
      by_contra hp
      exact hs (h.stage_of_start inv hp)
    cases hi.of_sample hp first
    exact h.vNowWritten_of_vsample
  · exact h.vNowWritten_mono (inv.sampled first)

theorem nextStage_eq_slot {cfg : Config} {cycleN n : Nat} {st : Stage} (h : nextStage cfg cycleN st = .slot n) :
    n < cfg.numWords ∧ (st = .decode ∨ ∃ m, st = .slot m) := by
  unfold nextStage slotOrSleep at h
  grind

/-- The stage after a step is a slot only in the loop, after DECODE or another slot (44_decoder_and_cycle R182). -/
theorem Effect.slot_of_advance {n : Nat} (h : Effect i s t) (inv : s.Inv) (hs : (advance s t).stage = .slot n) :
    s.phase = .loop ∧ n < s.cfg.numWords ∧ (s.stage = .decode ∨ ∃ m, s.stage = .slot m) := by
  have hp : s.phase = .loop := by
    by_contra hp
    simp [h.stage_of_start inv hp] at hs
  rw [advance_stage_loop hp] at hs
  exact ⟨hp, nextStage_eq_slot hs⟩

/-- The duties are the frame's from DECODE to the last slot (44_decoder_and_cycle R182). -/
theorem Effect.keeps_dutiesDecoded {n : Nat} (h : Effect i s t) (hi : Issues s i) (inv : s.Inv)
    (hs : (advance s t).stage = .slot n) : t.frameDuties = some t.duty := by
  obtain ⟨hp, -, hd | ⟨m, hm⟩⟩ := h.slot_of_advance inv hs
  · cases hi.of_decode hp hd
    exact h.duty_of_decode
  · obtain ⟨noDecode, noFetch⟩ := hi.of_slot hp hm
    rw [h.duty_writer.resolve_left noDecode,
      State.frameDuties_congr s t h.cfg_eq (h.frame_writer.resolve_left noFetch).1]
    exact inv.dutiesDecoded m hm

end Sequence

end Invariant

/-- Settles O48: the registers keep in order through every well-formed operation, and the sequencer issues no
other; its own clauses follow its sequence. -/
theorem everyStepKeepsTheInvariant : Obligations.EveryStepKeepsTheInvariant := by
  intro s t inv h
  obtain ⟨i, u, issues, -, effect, rfl⟩ := step_issues h
  have start : i = .configure → ∀ c ∈ s.mains, c.prev = 0 := by
    rintro rfl
    exact inv.startDuties issues.phase_of_configure
  have ok := effect.keeps_registersOk inv.registersOk inv.cfgLegal (issues.wf inv) start
  have place := effect.gate_or_loop issues inv
  exact {
    cfgLegal := by rw [advance_cfg, effect.cfg_eq, inv.cfgLegal]
    mainFile := by simpa using ok.mainFile
    subFile := by simpa using ok.subFile
    mainsOk := by simpa using ok.mainsOk
    subsOk := by simpa using ok.subsOk
    frameOk := by simpa [State.frameSize] using ok.frameOk
    vNowFloor := by simpa using ok.vNowFloor
    vFiltFloor := by simpa using ok.vFiltFloor
    sampled := fun hs => by rw [advance_vNowWritten, effect.keeps_sampled issues inv hs]
    slotInFrame := fun n hs => by
      rw [advance_cfg, effect.cfg_eq]
      exact (effect.slot_of_advance inv hs).2.1
    dutiesDecoded := fun n hs => by
      rw [State.frameDuties_congr u (advance s u) (advance_cfg s u) (advance_frame s u), advance_duty]
      exact effect.keeps_dutiesDecoded issues inv hs
    powerInLoop := by
      rw [advance_powerEn, advance_phase]
      obtain ⟨-, gate, -, off⟩ | ⟨loop, on⟩ := place <;> simp [*]
    gatePresent := fun hp => by
      rw [advance_cfg, effect.cfg_eq]
      rw [advance_phase] at hp
      obtain ⟨-, -, gate, -⟩ | ⟨loop, -⟩ := place
      exacts [gate, by simp [loop] at hp]
    startStage := fun hp => by
      rw [advance_phase] at hp
      obtain ⟨start, -⟩ | ⟨loop, -⟩ := place
      exacts [effect.stage_of_start inv start, absurd loop hp]
    startDuties := fun hp => by
      rw [advance_phase] at hp
      obtain ⟨-, gate, -⟩ | ⟨loop, -⟩ := place <;> simp_all }

/-- Settles O33: a transition's instant is at most the clock's last answer, and the next draw is not below
it. -/
theorem dwellElapsedTimeNeverWraps : Obligations.DwellElapsedTimeNeverWraps := by
  intro s c inv hc
  have le : c.t0 ≤ s.nextNow := BitVec.le_trans (inv.subsOk c hc).t0Past s.drawNow_le
  exact ⟨BitVec.toNat_sub_of_le le, BitVec.le_def.mp le⟩

section Unread
/-! The registers that no operation reads to write another one: the filter's and `F_RANGE` (10_state R33,
R37). Both claims are one argument about a relation between states that agree in all other registers. -/

/-- `s` with the filter's registers and the flag of `x`. -/
def State.withUnread (s x : State) : State :=
  { s with emaState := x.emaState, vFilt := x.vFilt, vFiltWritten := x.vFiltWritten, fRange := x.fRange }

/-- A relation that leaves only registers free that no operation reads, but for those that write them: it says
nothing of the other registers than that they agree, and the two writers of the free registers keep it. -/
structure Unread (R : State → State → Prop) : Prop where
  agree : ∀ {s t}, R s t → t = s.withUnread t
  elsewhere : ∀ {s t}, R s t → ∀ v : State, R (v.withUnread s) (v.withUnread t)
  checkRange : ∀ {s t}, R s t → ∀ d, R (s.checkRange d) (t.checkRange d)
  filter : ∀ {s t}, R s t → outcomesAgree R (execVsampleFilt s) (execVsampleFilt t)

theorem sameButFilter_iff {s t : State} :
    sameButFilter s t ↔ ∃ e v w, t = { s with emaState := e, vFilt := v, vFiltWritten := w } := by
  refine ⟨fun h => ⟨_, _, _, h⟩, ?_⟩
  rintro ⟨e, v, w, rfl⟩
  rfl

theorem sameButRange_iff {s t : State} : sameButRange s t ↔ ∃ r, t = { s with fRange := r } := by
  refine ⟨fun h => ⟨_, h⟩, ?_⟩
  rintro ⟨r, rfl⟩
  rfl

theorem unread_sameButFilter : Unread sameButFilter where
  agree h := by obtain ⟨e, v, w, rfl⟩ := sameButFilter_iff.mp h; rfl
  elsewhere h v := by obtain ⟨e, v, w, rfl⟩ := sameButFilter_iff.mp h; exact sameButFilter_iff.mpr ⟨_, _, _, rfl⟩
  checkRange h d := by obtain ⟨e, v, w, rfl⟩ := sameButFilter_iff.mp h; exact sameButFilter_iff.mpr ⟨_, _, _, rfl⟩
  filter h := by obtain ⟨e, v, w, rfl⟩ := sameButFilter_iff.mp h; exact sameButFilter_iff.mpr ⟨_, _, _, rfl⟩

theorem unread_sameButRange : Unread sameButRange where
  agree h := by obtain ⟨r, rfl⟩ := sameButRange_iff.mp h; rfl
  elsewhere h v := by obtain ⟨r, rfl⟩ := sameButRange_iff.mp h; exact sameButRange_iff.mpr ⟨_, rfl⟩
  checkRange h d := by obtain ⟨r, rfl⟩ := sameButRange_iff.mp h; exact sameButRange_iff.mpr ⟨_, rfl⟩
  filter h := by obtain ⟨r, rfl⟩ := sameButRange_iff.mp h; exact sameButRange_iff.mpr ⟨_, rfl⟩

/-- Agreement goes through a sequence. -/
theorem outcomesAgree_andThen {R : State → State → Prop} {o p : Host.Outcome State Fault Refusal}
    {f g : State → Host.Outcome State Fault Refusal} (h : outcomesAgree R o p)
    (hfg : ∀ s t, R s t → outcomesAgree R (f s) (g t)) : outcomesAgree R (andThen o f) (andThen p g) := by
  cases o with
  | next s => cases p with
    | next t => exact hfg s t h
    | fault | refused => exact h.elim
  | fault => cases p with
    | fault => exact h
    | next | refused => exact h.elim
  | refused => cases p with
    | refused => exact h
    | next | fault => exact h.elim

/-! The composite writes leave the free registers, and do the same whatever these hold. -/

theorem State.applySub_withUnread (k : Nat) (c : SubChan) (d1 : Int) (s x : State) :
    (s.withUnread x).applySub k c d1 = (s.applySub k c d1).withUnread x := by
  unfold State.applySub State.handOver
  split <;> rfl

theorem State.writePattern_withUnread (k : Nat) (on : Bool) (s x : State) :
    (s.withUnread x).writePattern k on = (s.writePattern k on).withUnread x := by
  cases on <;> rfl

theorem State.refreshSolenoid_withUnread (k : Nat) (on : Bool) (s x : State) :
    (s.withUnread x).refreshSolenoid k on = (s.refreshSolenoid k on).withUnread x := by
  have cfg : (s.withUnread x).cfg = s.cfg := rfl
  unfold State.refreshSolenoid
  rw [cfg]
  cases s.cfg.solRefresh
  · exact State.writePattern_withUnread k on s x
  · rfl

theorem State.solenoidAt_withUnread (k : Nat) (c : SubChan) (on : Bool) (now : Instant) (s x : State) :
    (s.withUnread x).solenoidAt k c on now = (s.solenoidAt k c on now).withUnread x := by
  have cfg : (s.withUnread x).cfg = s.cfg := rfl
  unfold State.solenoidAt
  rw [cfg, State.refreshSolenoid_withUnread, State.writePattern_withUnread]
  split
  · rfl
  · split <;> rfl

theorem advance_withUnread (s u x : State) : advance s (u.withUnread x) = (advance s u).withUnread x := by
  unfold advance
  split <;> [rfl; rfl; split <;> rfl]

namespace Unread

variable {R : State → State → Prop} (U : Unread R) {s t : State} (h : R s t)
include U h

/-- What reads other registers only reads the same of both. -/
theorem reads {α : Type} (f : State → α) (hf : ∀ s x : State, f (s.withUnread x) = f s) : f t = f s := by
  rw [U.agree h, hf]

theorem cfg_eq : t.cfg = s.cfg := U.reads h State.cfg fun _ _ => rfl

/-- A write of other registers keeps the relation. -/
theorem write (f : State → State) (hf : ∀ s x : State, f (s.withUnread x) = (f s).withUnread x) : R (f s) (f t) := by
  have hs : f s = (f s).withUnread s := hf s s
  have ht : f t = (f s).withUnread t := by
    rw [← hf s t, ← U.agree h]
  rw [hs, ht]
  exact U.elsewhere h (f s)

/-! One lemma per operation: both states take the same branch, and what it writes are other registers. -/

theorem agree_mainDrive (m : Nat) (d : Int) : outcomesAgree R (execMainDrive m d s) (execMainDrive m d t) := by
  have entry : t.mains[m]? = s.mains[m]? := U.reads h (fun s => s.mains[m]?) fun _ _ => rfl
  unfold execMainDrive
  rw [entry, U.cfg_eq h]
  cases s.mains[m]? with
  | none => rfl
  | some c =>
    dsimp only
    split
    · exact U.checkRange h d
    · exact U.write (U.checkRange h d) (·.applyMain m _) fun _ _ => rfl

theorem agree_subMotor (k : Nat) (d : Int) : outcomesAgree R (execSubMotor k d s) (execSubMotor k d t) := by
  have entry : t.subs[k]? = s.subs[k]? := U.reads h (fun s => s.subs[k]?) fun _ _ => rfl
  unfold execSubMotor
  rw [entry, U.cfg_eq h]
  cases s.subs[k]? with
  | none => rfl
  | some c =>
    dsimp only
    split
    · exact U.checkRange h d
    · exact U.write (U.checkRange h d) (·.applySub k c _) (State.applySub_withUnread k c _)

theorem agree_solenoidSwitch (k : Nat) (on : Bool) :
    outcomesAgree R (solenoidSwitch k on s) (solenoidSwitch k on t) := by
  have entry : t.subs[k]? = s.subs[k]? := U.reads h (fun s => s.subs[k]?) fun _ _ => rfl
  unfold solenoidSwitch
  rw [entry]
  cases s.subs[k]? with
  | none => rfl
  | some c =>
    exact U.write h (fun s => s.drawNow.2.solenoidAt k c on s.drawNow.1) fun s x =>
      State.solenoidAt_withUnread k c on s.drawNow.1 s.drawNow.2 x

theorem agree_subDispatch (k : Nat) (d : Int) : outcomesAgree R (execSubDispatch k d s) (execSubDispatch k d t) := by
  unfold execSubDispatch
  rw [U.cfg_eq h]
  split
  · exact U.agree_solenoidSwitch h k true
  · split
    · exact U.agree_solenoidSwitch h k false
    · exact U.agree_subMotor h k d

theorem agree_configure : outcomesAgree R (execConfigure s) (execConfigure t) := by
  unfold execConfigure
  rw [U.cfg_eq h]
  split
  · exact U.write h (fun s => s.configureOutputs.setPhase .gate) fun _ _ => rfl
  · exact U.write h (fun s => (s.configureOutputs.setPhase .loop).assertPower) fun _ _ => rfl

theorem agree_startupGate : outcomesAgree R (execStartupGate s) (execStartupGate t) := by
  have poll : gatePasses t.cfg t.drawRawGate.1 = gatePasses s.cfg s.drawRawGate.1 :=
    U.reads h (fun s => gatePasses s.cfg s.drawRawGate.1) fun _ _ => rfl
  have eq : ∀ s : State, execStartupGate s = if gatePasses s.cfg s.drawRawGate.1 = true then
      .next (s.drawRawGate.2.assertPower.setPhase .loop) else .next s.drawRawGate.2 := fun _ => rfl
  rw [eq, eq, poll]
  split
  · exact U.write h (fun s => s.drawRawGate.2.assertPower.setPhase .loop) fun _ _ => rfl
  · exact U.write h (fun s => s.drawRawGate.2) fun _ _ => rfl

theorem agree_fetchFrame : outcomesAgree R (execFetchFrame s) (execFetchFrame t) := by
  have frames : t.handedOver = s.handedOver := U.reads h State.handedOver fun _ _ => rfl
  have size : t.frameSize = s.frameSize := U.reads h State.frameSize fun _ _ => rfl
  rw [execFetchFrame_eq, execFetchFrame_eq, frames, size]
  split
  · cases s.handedOver.getLast? with
    | none => exact U.write h (fun s => s.withEnv s.envAfterFetch) fun _ _ => rfl
    | some f =>
      exact U.write h (fun s => { s with frame := memOfBytes 0 f, pending := none, env := s.envAfterFetch })
        fun _ _ => rfl
  · rfl

theorem agree_decode : outcomesAgree R (execDecode s) (execDecode t) := by
  have duties : t.frameDuties = s.frameDuties :=
    U.reads h State.frameDuties fun s x => State.frameDuties_congr s (s.withUnread x) rfl rfl
  unfold execDecode
  rw [duties]
  cases s.frameDuties with
  | none => rfl
  | some ds => exact U.write h (fun s => { s with duty := ds }) fun _ _ => rfl

theorem agree_filterStage : outcomesAgree R (filterStage s) (filterStage t) := by
  have count : t.cycleN = s.cycleN := U.reads h State.cycleN fun _ _ => rfl
  unfold filterStage
  rw [U.cfg_eq h, count]
  split
  · exact U.filter h
  · exact h

omit h in
theorem agree_driveMains (ms : List Nat) :
    ∀ {s t : State}, R s t → outcomesAgree R (driveMains ms s) (driveMains ms t) := by
  induction ms with
  | nil => exact id
  | cons m ms ih =>
    intro s t h
    have duty : t.duty = s.duty := U.reads h State.duty fun _ _ => rfl
    simp only [driveMains, duty]
    cases s.duty[m]? with
    | none => rfl
    | some d => exact outcomesAgree_andThen (U.agree_mainDrive h m d) fun _ _ => ih

omit h in
theorem agree_dispatchSubs (ks : List Nat) :
    ∀ {s t : State}, R s t → outcomesAgree R (dispatchSubs ks s) (dispatchSubs ks t) := by
  induction ks with
  | nil => exact id
  | cons k ks ih =>
    intro s t h
    have duty : t.duty = s.duty := U.reads h State.duty fun _ _ => rfl
    simp only [dispatchSubs, duty, U.cfg_eq h]
    cases s.duty[s.cfg.numMain + k]? with
    | none => rfl
    | some d => exact outcomesAgree_andThen (U.agree_subDispatch h k d) fun _ _ => ih

theorem agree_vsample : outcomesAgree R (execVsample s) (execVsample t) :=
  U.write h (fun s => s.drawRaw.2.setVNow (floorVolts s.cfg (rawVolts s.cfg s.drawRaw.1))) fun _ _ => rfl

theorem agree_controlCycle : outcomesAgree R (execControlCycle s) (execControlCycle t) := by
  refine outcomesAgree_andThen (U.agree_vsample h) fun _ _ h => ?_
  refine outcomesAgree_andThen (U.agree_filterStage h) fun _ _ h => ?_
  refine outcomesAgree_andThen (U.agree_fetchFrame h) fun _ _ h => ?_
  refine outcomesAgree_andThen (U.agree_decode h) fun _ _ h => ?_
  refine outcomesAgree_andThen (U.cfg_eq h ▸ U.agree_driveMains _ h) fun _ _ h => ?_
  refine outcomesAgree_andThen (U.cfg_eq h ▸ U.agree_dispatchSubs _ h) fun _ _ h => ?_
  exact U.write h State.countCycle fun _ _ => rfl

theorem agree_exec (i : Instr) : outcomesAgree R (exec i s) (exec i t) := by
  cases i with
  | subSolOn k => exact U.agree_solenoidSwitch h k true
  | subSolOff k => exact U.agree_solenoidSwitch h k false
  | subMotor k d => exact U.agree_subMotor h k d
  | mainDrive m d => exact U.agree_mainDrive h m d
  | configure => exact U.agree_configure h
  | startupGate => exact U.agree_startupGate h
  | powerEnable => exact U.write h State.assertPower fun _ _ => rfl
  | vsample => exact U.agree_vsample h
  | vsampleFilt => exact U.filter h
  | fetchFrame => exact U.agree_fetchFrame h
  | decode => exact U.agree_decode h
  | slewLimit req prev limit =>
    exact U.write h (fun s => { s with slewRet := slewLimit req prev limit }) fun _ _ => rfl
  | solenoidSwitch k on => exact U.agree_solenoidSwitch h k on
  | subDispatch k d => exact U.agree_subDispatch h k d
  | sleep => exact h
  | controlCycle => exact U.agree_controlCycle h

/-- The sequencer reads none of the free registers, and moves on alike. -/
theorem agree_advance {u v : State} (huv : R u v) : R (advance s u) (advance t v) := by
  have eq : advance t = advance s := U.reads h advance fun _ _ => rfl
  rw [eq]
  exact U.write huv (advance s) (advance_withUnread s)

theorem agree_step : outcomesAgree R (step s) (step t) := by
  have same : issued t = issued s := U.reads h issued fun _ _ => rfl
  unfold step
  rw [U.cfg_eq h, same]
  split
  · cases issued s with
    | ok i => exact outcomesAgree_andThen (U.agree_exec h i) fun _ _ => U.agree_advance h
    | error f => rfl
  · rfl

end Unread

end Unread

/-- Settles O17: the filter's registers are read by VSAMPLE_FILT alone, which writes no other
register. -/
theorem filterRegistersReachNothingElse : Obligations.FilterRegistersReachNothingElse :=
  fun _ _ h => ⟨unread_sameButFilter.agree_exec h, unread_sameButFilter.agree_step h⟩

/-- Settles O52: the flag is read by its own update alone. -/
theorem rangeFlagIsNeverRead : Obligations.RangeFlagIsNeverRead :=
  fun _ _ h => ⟨unread_sameButRange.agree_exec h, unread_sameButRange.agree_step h⟩

section Direction

/-- The electrical level of a direction that follows a duty (10_state R25, 42_main_channel R133). -/
theorem dirPinLevel_dirOf (cfg : Config) (d : Int) :
    dirPinLevel cfg (dirOf d) = if d < 0 then cfg.dirLevelNeg else !cfg.dirLevelNeg := by
  unfold dirOf
  split <;> rfl

/-- MAIN_DRIVE keeps the direction with the sign of the applied duty (42_main_channel R133). -/
theorem Effect.dir_follows {s t : State} {m : Nat} {d : Int} {c c' : MainChan} (h : Effect (.mainDrive m d) s t)
    (hc : s.mains[m]? = some c) (hd : c.dir = dirOf c.prev) (hc' : t.mains[m]? = some c') :
    c'.dir = dirOf c'.prev := by
  obtain eq | ⟨_, _, _, d1, ⟨⟩, -, -, eq⟩ | ⟨⟨⟩, -⟩ := h.mains_cases <;> rw [eq] at hc'
  · cases hc.symm.trans hc'
    exact hd
  · cases (getElem?_set_at _ _ _ _ hc).symm.trans hc'
    rfl

end Direction

/-- Settles O26: MAIN_DRIVE keeps the direction with the duty, and the pin's level is that of the direction. -/
theorem directionPinFollowsTheAppliedDuty : Obligations.DirectionPinFollowsTheAppliedDuty := by
  intro s t m d c c' hc hd h hc'
  rw [(exec_effect (.mainDrive m d) s t nofun h).dir_follows hc hd hc', dirPinLevel_dirOf]

section Solenoid

/-- SOLENOID_SWITCH in full: the clock is drawn, and the channel and the record take what its rule gives
(43_sub_channel R153). -/
theorem solenoidSwitch_eq {s : State} {k : Nat} {c : SubChan} (on : Bool) (hc : s.subs[k]? = some c) :
    solenoidSwitch k on s = .next { s with
      subs := s.subs.set k (switched s.cfg k c on s.nextNow).1
      events := s.events ++ (switched s.cfg k c on s.nextNow).2
      env := s.drawNow.2.env } := by
  rw [solenoidSwitch, hc]
  exact congrArg _ (State.solenoidAt_eq s.drawNow.2 k c on s.nextNow hc)

theorem dwellDrops_iff (cfg : Config) (c : SubChan) (now : Instant) :
    dwellDrops cfg c now = true
      ↔ (c.sol ≠ .uninit ∨ cfg.solFirstGated = true) ∧ (now - c.t0).toNat < cfg.solenoidTime := by
  simp [dwellDrops]

end Solenoid

/-- Settles O29, from the outcomes of `switched` in the order of the rule's tests. -/
theorem solenoidSwitchDropsRefreshesOrSwitches : Obligations.SolenoidSwitchDropsRefreshesOrSwitches := by
  rintro s k on c now drawn hc rfl rfl
  refine ⟨s.drawNow_le, ?_, ?_⟩
  · intro x rest script le
    simp only [State.nextNow, State.drawNow, script, List.headD_cons]
    exact laterOf_of_le _ _ le
  · refine (solenoidSwitch_eq on hc).trans (congrArg _ ?_)
    unfold switched
    simp only [dwellDrops_iff]
    split
    · simp [set_of_getElem? hc, State.nextNow]
    · split
      · rename_i same
        rw [if_pos (by simpa [solTarget] using same)]
        unfold refreshed
        cases s.cfg.solRefresh <;> cases on <;> rfl
      · rename_i other
        rw [if_neg (by simpa [solTarget] using other)]
        cases on <;> rfl

section Commute
/-! Two channels in either order (44_decoder_and_cycle R184). What a channel operation writes is made of the
configuration, the voltage, its own channel's registers and, for a solenoid request, the clock's next answer;
so a write on another channel does not change it. -/

/-- The three rules that a channel operation can run (42_main_channel R130, 43_sub_channel R151, R153). -/
inductive Rule where
  | main (m : Nat) (d : Int)
  | motor (k : Nat) (d : Int)
  | solenoid (k : Nat) (on : Bool)

/-- The channel of a rule, as the slot of the frame that commands it (30_encoding R82). -/
def Rule.slot : Rule → Slot
  | .main m _ => .main m
  | .motor k _ => .sub k
  | .solenoid k _ => .sub k

/-- Whether a rule draws the clock (10_state R44). -/
def Rule.draws : Rule → Bool
  | .main _ _ => false
  | .motor _ _ => false
  | .solenoid _ _ => true

/-- What a rule does. -/
def Rule.run : Rule → State → Host.Outcome State Fault Refusal
  | .main m d => execMainDrive m d
  | .motor k d => execSubMotor k d
  | .solenoid k on => solenoidSwitch k on

/-- What a rule writes: the registers of one channel and the events, and either what it adds to `F_RANGE` or
a draw of the clock. -/
inductive ChannelWrite where
  | main (m : Nat) (c : MainChan) (raise : Bool) (new : List Event)
  | motor (k : Nat) (c : SubChan) (raise : Bool) (new : List Event)
  | solenoid (k : Nat) (c : SubChan) (new : List Event)

namespace ChannelWrite

def slot : ChannelWrite → Slot
  | .main m _ _ _ => .main m
  | .motor k _ _ _ => .sub k
  | .solenoid k _ _ => .sub k

def draws : ChannelWrite → Bool
  | .main _ _ _ _ => false
  | .motor _ _ _ _ => false
  | .solenoid _ _ _ => true

def raise : ChannelWrite → Bool
  | .main _ _ r _ => r
  | .motor _ _ r _ => r
  | .solenoid _ _ _ => false

def new : ChannelWrite → List Event
  | .main _ _ _ es => es
  | .motor _ _ _ es => es
  | .solenoid _ _ es => es

def onMains : ChannelWrite → List MainChan → List MainChan
  | .main m c _ _, l => l.set m c
  | .motor _ _ _ _, l => l
  | .solenoid _ _ _, l => l

def onSubs : ChannelWrite → List SubChan → List SubChan
  | .main _ _ _ _, l => l
  | .motor k c _ _, l => l.set k c
  | .solenoid k c _, l => l.set k c

variable {w w' : ChannelWrite}

theorem getElem?_onMains {m : Nat} (h : w.slot ≠ .main m) (l : List MainChan) : (w.onMains l)[m]? = l[m]? := by
  cases w with
  | main n => exact List.getElem?_set_ne fun eq => h (congrArg Slot.main eq)
  | motor | solenoid => rfl

theorem getElem?_onSubs {k : Nat} (h : w.slot ≠ .sub k) (l : List SubChan) : (w.onSubs l)[k]? = l[k]? := by
  cases w with
  | main => rfl
  | motor n | solenoid n => exact List.getElem?_set_ne fun eq => h (congrArg Slot.sub eq)

theorem onMains_comm (h : w.slot ≠ w'.slot) (l : List MainChan) :
    w'.onMains (w.onMains l) = w.onMains (w'.onMains l) := by
  cases w with
  | motor | solenoid => rfl
  | main m => cases w' with
    | motor | solenoid => rfl
    | main n => exact List.set_comm _ _ fun eq => h (congrArg Slot.main eq)

theorem onSubs_comm (h : w.slot ≠ w'.slot) (l : List SubChan) :
    w'.onSubs (w.onSubs l) = w.onSubs (w'.onSubs l) := by
  cases w with
  | main => rfl
  | motor k | solenoid k => cases w' with
    | main => rfl
    | motor n | solenoid n => exact List.set_comm _ _ fun eq => h (congrArg Slot.sub eq)

end ChannelWrite

/-- The environment after the clock has been drawn or not. -/
def State.envAfter (s : State) (draws : Bool) : Env := if draws then s.drawNow.2.env else s.env

/-- The state with a channel write in its registers and its record. -/
def State.write (s : State) (w : ChannelWrite) : State :=
  { s with
    fRange := s.fRange || w.raise
    mains := w.onMains s.mains
    subs := w.onSubs s.subs
    events := s.events ++ w.new
    env := s.envAfter w.draws }

theorem State.write_main (s : State) (m : Nat) (c : MainChan) (raise : Bool) (new : List Event) :
    s.write (.main m c raise new) =
      { s with fRange := s.fRange || raise, mains := s.mains.set m c, events := s.events ++ new } := rfl

theorem State.write_motor (s : State) (k : Nat) (c : SubChan) (raise : Bool) (new : List Event) :
    s.write (.motor k c raise new) =
      { s with fRange := s.fRange || raise, subs := s.subs.set k c, events := s.events ++ new } := rfl

theorem State.write_solenoid (s : State) (k : Nat) (c : SubChan) (new : List Event) :
    s.write (.solenoid k c new) =
      { s with subs := s.subs.set k c, events := s.events ++ new, env := s.drawNow.2.env } := by
  rw [State.write, ChannelWrite.raise, Bool.or_false]
  rfl

/-- Two writes on different channels give one state in either order, but for the order of their events. -/
theorem State.write_comm (s : State) {w w' : ChannelWrite} (h : w.slot ≠ w'.slot) :
    sameButEvents ((s.write w).write w') ((s.write w').write w) := by
  have env : ((s.write w).write w').env = ((s.write w').write w).env := by
    show (s.write w).envAfter w'.draws = (s.write w').envAfter w.draws
    unfold State.envAfter
    cases hw : w.draws <;> cases hw' : w'.draws <;> simp [State.write, State.envAfter, State.drawNow, hw, hw']
  simp only [sameButEvents, State.write, ChannelWrite.onMains_comm h, ChannelWrite.onSubs_comm h,
    Bool.or_right_comm s.fRange w'.raise w.raise]
  simp only [State.write] at env
  rw [env]

/-- What MAIN_DRIVE's rule gives its channel and the record (42_main_channel R130). -/
def drivenMain (cfg : Config) (v : Volts) (m : Nat) (d : Int) (c : MainChan) : MainChan × List Event :=
  let d1 := slewLimit d c.prev cfg.dutyDiffMax
  if d1 = c.prev then (c, [])
  else (⟨d1, mainLevel cfg d1 v, dirOf d1⟩, [.pinWrite (.main m) (mainLevel cfg d1 v), .dirWrite m (dirOf d1)])

/-- What SUB_MOTOR's rule gives its channel and the record (43_sub_channel R151). -/
def drivenSub (cfg : Config) (v : Volts) (k : Nat) (d : Int) (c : SubChan) : SubChan × List Event :=
  let d1 := slewLimit d c.prev cfg.dutyDiffMax
  if d1 = c.prev then (c, []) else (movedSub cfg v c d1, movedSubEvents cfg v k c d1)

/-- What a rule writes in a state; nothing if the machine has no such channel. -/
def Rule.content (s : State) : Rule → Option ChannelWrite
  | .main m d => s.mains[m]?.map fun c =>
      .main m (drivenMain s.cfg s.vNow m d c).1 (outOfRange s.cfg d) (drivenMain s.cfg s.vNow m d c).2
  | .motor k d => s.subs[k]?.map fun c =>
      .motor k (drivenSub s.cfg s.vNow k d c).1 (outOfRange s.cfg d) (drivenSub s.cfg s.vNow k d c).2
  | .solenoid k on => s.subs[k]?.map fun c =>
      .solenoid k (switched s.cfg k c on s.nextNow).1 (switched s.cfg k c on s.nextNow).2

theorem Rule.content_slot {r : Rule} {s : State} {w : ChannelWrite} (h : r.content s = some w) :
    w.slot = r.slot ∧ w.draws = r.draws := by
  cases r <;> obtain ⟨c, -, rfl⟩ := Option.map_eq_some_iff.mp h <;> exact ⟨rfl, rfl⟩

/-- A rule is its content, written. -/
theorem Rule.run_eq (r : Rule) (s : State) : r.run s = match r.content s with
    | some w => .next (s.write w)
    | none => .fault .noSuchChannel := by
  cases r with
  | main m d =>
    simp only [Rule.run, Rule.content, execMainDrive]
    cases hc : s.mains[m]? with
    | none => rfl
    | some c =>
      simp only [Option.map_some, State.write_main, drivenMain]
      split
      · simp [State.checkRange, set_of_getElem? hc]
      · rw [State.applyMain_eq (s.checkRange d) m _ c hc]
        rfl
  | motor k d =>
    simp only [Rule.run, Rule.content, execSubMotor]
    cases hc : s.subs[k]? with
    | none => rfl
    | some c =>
      simp only [Option.map_some, State.write_motor, drivenSub]
      split
      · simp [State.checkRange, set_of_getElem? hc]
      · rw [State.applySub_eq (s.checkRange d) k c _ hc]
        rfl
  | solenoid k on =>
    simp only [Rule.run, Rule.content]
    cases hc : s.subs[k]? with
    | none => simp [solenoidSwitch, hc]
    | some c =>
      simp only [Option.map_some, State.write_solenoid]
      exact solenoidSwitch_eq on hc

/-- The clock's next answer after a write that does not draw it, or whose draw gives the answer of the next one. -/
theorem State.nextNow_write {s : State} {w : ChannelWrite}
    (h : w.draws = false ∨ s.nextNow = s.drawNow.2.nextNow) : (s.write w).nextNow = s.nextNow := by
  cases hw : w.draws with
  | false =>
    have env : (s.write w).env = s.env := by simp [State.write, State.envAfter, hw]
    simp [State.nextNow, State.drawNow, env]
  | true =>
    have env : (s.write w).env = s.drawNow.2.env := by simp [State.write, State.envAfter, hw]
    have same : (s.write w).nextNow = s.drawNow.2.nextNow := by
      simp [State.nextNow, State.drawNow, env]
    rw [same, h.resolve_left (by simp [hw])]

/-- A write on another channel does not change what a rule writes. -/
theorem Rule.content_write {r : Rule} {s : State} {w : ChannelWrite} (apart : w.slot ≠ r.slot)
    (clock : w.draws = false ∨ r.draws = false ∨ s.nextNow = s.drawNow.2.nextNow) :
    r.content (s.write w) = r.content s := by
  cases r with
  | main m d =>
    show ((w.onMains s.mains)[m]?).map _ = _
    rw [ChannelWrite.getElem?_onMains apart]
    rfl
  | motor k d =>
    show ((w.onSubs s.subs)[k]?).map _ = _
    rw [ChannelWrite.getElem?_onSubs apart]
    rfl
  | solenoid k on =>
    have now := State.nextNow_write (clock.imp_right (·.resolve_left (by simp [Rule.draws])))
    simp only [Rule.content, now]
    show ((w.onSubs s.subs)[k]?).map _ = _
    rw [ChannelWrite.getElem?_onSubs apart]
    rfl

/-- Two rules on different channels, in either order. -/
theorem Rule.run_comm {r r' : Rule} {s t : State} (apart : r.slot ≠ r'.slot)
    (clock : r.draws = false ∨ r'.draws = false ∨ s.nextNow = s.drawNow.2.nextNow)
    (h : andThen (r.run s) r'.run = .next t) :
    ∃ t' x y, andThen (r'.run s) r.run = .next t' ∧ t.events = s.events ++ x ++ y
      ∧ t'.events = s.events ++ y ++ x ∧ sameButEvents t t' := by
  rw [r.run_eq] at h
  cases hw : r.content s with
  | none => simp [hw] at h
  | some w =>
    obtain ⟨slot, draws⟩ := Rule.content_slot hw
    simp only [hw, andThen_next] at h
    rw [r'.run_eq, Rule.content_write (slot ▸ apart) (draws ▸ clock)] at h
    cases hw' : r'.content s with
    | none => simp [hw'] at h
    | some w' =>
      obtain ⟨slot', draws'⟩ := Rule.content_slot hw'
      simp only [hw', Host.Outcome.next.injEq] at h
      subst h
      have second : r.run (s.write w') = .next ((s.write w').write w) := by
        rw [r.run_eq, Rule.content_write (slot' ▸ apart.symm) (draws' ▸ or_left_comm.mp clock), hw]
      exact ⟨_, w.new, w'.new, by rw [r'.run_eq, hw', andThen_next, second], rfl, rfl,
        s.write_comm (slot.symm ▸ slot'.symm ▸ apart)⟩

/-- An operation on the channel of a slot. -/
def onSlot (i : Instr) : Slot → Prop
  | .main m => onMainChannel m i
  | .sub k => onSubChannel k i

theorem differentChannels.slots {i j : Instr} (h : differentChannels i j) :
    ∃ c c', onSlot i c ∧ onSlot j c' ∧ c ≠ c' := by
  obtain ⟨m, n, hi, hj, ne⟩ | ⟨m, k, hi, hj⟩ | ⟨k, m, hi, hj⟩ | ⟨k, l, hi, hj, ne⟩ := h
  · exact ⟨.main m, .main n, hi, hj, by simpa using ne⟩
  · exact ⟨.main m, .sub k, hi, hj, nofun⟩
  · exact ⟨.sub k, .main m, hi, hj, nofun⟩
  · exact ⟨.sub k, .sub l, hi, hj, by simpa using ne⟩

/-- SUB_DISPATCH by the magnitude of its duty, and on a sentinel by its sign (43_sub_channel R156). -/
theorem execSubDispatch_eq (k : Nat) (d : Int) (s : State) :
    execSubDispatch k d s =
      if isSentinel s.cfg d then solenoidSwitch k (decide (0 < d)) s else execSubMotor k d s := by
  unfold execSubDispatch
  by_cases sentinel : isSentinel s.cfg d
  · by_cases pos : 0 < d
    · rw [if_pos ⟨sentinel, pos⟩, if_pos sentinel, decide_eq_true pos]; rfl
    · rw [if_neg fun h => pos h.2, if_pos sentinel, if_pos sentinel, decide_eq_false pos]; rfl
  · rw [if_neg fun h => sentinel h.1, if_neg sentinel, if_neg sentinel]

theorem isMotor.plain_of_subDispatch {cfg : Config} {k : Nat} {d : Int} (h : isMotor cfg (.subDispatch k d)) :
    ¬ isSentinel cfg d := by
  obtain ⟨m, e, ⟨⟩⟩ | ⟨l, e, ⟨⟩⟩ | ⟨l, e, ⟨⟩, plain⟩ := h
  exact plain

/-- Under one configuration a channel operation runs one rule; a motor operation runs one without a draw. -/
theorem exists_rule {i : Instr} {c : Slot} (cfg : Config) (h : onSlot i c) :
    ∃ r : Rule, r.slot = c ∧ (isMotor cfg i → r.draws = false) ∧ ∀ s : State, s.cfg = cfg → exec i s = r.run s := by
  cases c with
  | main m =>
    obtain ⟨d, rfl⟩ := h
    exact ⟨.main m d, rfl, fun _ => rfl, fun _ _ => rfl⟩
  | sub k =>
    obtain rfl | rfl | ⟨d, rfl⟩ | ⟨on, rfl⟩ | ⟨d, rfl⟩ := h
    · exact ⟨.solenoid k true, rfl, by simp [isMotor, onMainChannel], fun _ _ => rfl⟩
    · exact ⟨.solenoid k false, rfl, by simp [isMotor, onMainChannel], fun _ _ => rfl⟩
    · exact ⟨.motor k d, rfl, fun _ => rfl, fun _ _ => rfl⟩
    · exact ⟨.solenoid k on, rfl, by simp [isMotor, onMainChannel], fun _ _ => rfl⟩
    · by_cases sentinel : isSentinel cfg d
      · refine ⟨.solenoid k (decide (0 < d)), rfl, fun h => absurd sentinel h.plain_of_subDispatch, ?_⟩
        rintro s rfl
        exact (execSubDispatch_eq k d s).trans (if_pos sentinel)
      · refine ⟨.motor k d, rfl, fun _ => rfl, ?_⟩
        rintro s rfl
        exact (execSubDispatch_eq k d s).trans (if_neg sentinel)

/-- Two operations on different channels in sequence are their rules in sequence. -/
theorem andThen_exec {i j : Instr} {r r' : Rule} {s : State} (hi : ∀ u : State, u.cfg = s.cfg → exec i u = r.run u)
    (hj : ∀ u : State, u.cfg = s.cfg → exec j u = r'.run u) :
    andThen (exec i s) (exec j) = andThen (r.run s) r'.run := by
  rw [← hi s rfl]
  cases hu : exec i s with
  | next u => exact hj u (configurationIsReadOnly i s u hu)
  | fault | refused => rfl

end Commute

/-- Settles O57: both operations are rules, and rules on different channels commute. -/
theorem motorChannelsCommute : Obligations.MotorChannelsCommute := by
  intro s t i j apart clock h
  obtain ⟨c, c', hi, hj, ne⟩ := apart.slots
  obtain ⟨r, rfl, motor, run⟩ := exists_rule s.cfg hi
  obtain ⟨r', rfl, motor', run'⟩ := exists_rule s.cfg hj
  rw [andThen_exec run run'] at h
  rw [andThen_exec run' run]
  exact Rule.run_comm ne (clock.imp motor (Or.imp_left motor')) h

section Pins
/-! The two pins of a sub channel after every single write of a record (43_sub_channel R157, log 22). -/

/-- At least one pin of channel `k` is at rest after every write of a record that meets the pins at `pins`. -/
def StaysExclusive (cfg : Config) (k : Nat) (pins : Int × Int) (es : List Event) : Prop :=
  ∀ p, p <+: es → oneAtRest cfg (pinsOfSub k pins p)

theorem staysExclusive_nil {cfg : Config} {k : Nat} {pins : Int × Int} :
    StaysExclusive cfg k pins [] ↔ oneAtRest cfg pins := by
  simp [StaysExclusive, pinsOfSub]

theorem staysExclusive_cons {cfg : Config} {k : Nat} {pins : Int × Int} {e : Event} {es : List Event} :
    StaysExclusive cfg k pins (e :: es)
      ↔ oneAtRest cfg pins ∧ StaysExclusive cfg k (pinsOfSub k pins [e]) es := by
  have through : ∀ p, pinsOfSub k pins (e :: p) = pinsOfSub k (pinsOfSub k pins [e]) p :=
    pinsOfSub_append k pins [e]
  constructor
  · exact fun h => ⟨h [] List.nil_prefix, fun p hp => through p ▸ h (e :: p) ((List.prefix_cons_inj e).mpr hp)⟩
  · rintro ⟨now, later⟩ p hp
    obtain rfl | ⟨q, rfl, hq⟩ := List.prefix_cons_iff.mp hp
    · exact now
    · exact through q ▸ later q hq

/-- Pin levels with one of them replaced. -/
def setPin (pins : Int × Int) (x : Side) (l : Int) : Int × Int :=
  match x with
  | .a => (l, pins.2)
  | .b => (pins.1, l)

theorem pinsOfSub_write (k : Nat) (pins : Int × Int) (x : Side) (l : Int) :
    pinsOfSub k pins [.pinWrite (.sub k x) l] = setPin pins x l := by
  cases x <;> simp [pinsOfSub, setPin]

theorem levels_withLevel (c : SubChan) (x : Side) (l : Int) :
    ((c.withLevel x l).levelA, (c.withLevel x l).levelB) = setPin (c.levelA, c.levelB) x l := by
  cases x <;> rfl

/-- The pin beside `x` is at rest. -/
def restBeside (cfg : Config) (x : Side) (pins : Int × Int) : Prop :=
  match x with
  | .a => pins.2 = restLevel cfg
  | .b => pins.1 = restLevel cfg

theorem inactiveAtRest_iff {cfg : Config} {c : SubChan} :
    c.inactiveAtRest cfg ↔ restBeside cfg c.active (c.levelA, c.levelB) := by
  rcases c with ⟨_, _ | _, _⟩ <;> rfl

theorem restBeside.oneAtRest {cfg : Config} {x : Side} {pins : Int × Int} (h : restBeside cfg x pins) :
    oneAtRest cfg pins := by
  cases x
  exacts [.inr h, .inl h]

/-- The pin in use may take any level. -/
theorem restBeside.drive {cfg : Config} {x : Side} {pins : Int × Int} (h : restBeside cfg x pins) (l : Int) :
    restBeside cfg x (setPin pins x l) := by
  cases x <;> exact h

/-- With the pin in use at rest too, either pin can be the next one in use. -/
theorem restBeside.release {cfg : Config} {x : Side} {pins : Int × Int} (h : restBeside cfg x pins) (y : Side) :
    restBeside cfg y (setPin pins x (restLevel cfg)) := by
  cases x <;> cases y
  exacts [h, rfl, rfl, h]

/-- Writes to the rest level only keep one pin at rest. -/
theorem staysExclusive_of_subWritesRest {cfg : Config} {k : Nat} {pins : Int × Int} {es : List Event}
    (h : subWritesRest cfg k es) (hp : oneAtRest cfg pins) : StaysExclusive cfg k pins es := by
  induction es generalizing pins with
  | nil => exact staysExclusive_nil.mpr hp
  | cons e es ih =>
    refine staysExclusive_cons.mpr ⟨hp, ih (fun x l mem => h x l (List.mem_cons_of_mem e mem)) ?_⟩
    rcases e with ⟨_ | ⟨j, x⟩, l⟩ | ⟨_, _⟩ | _
    · exact hp
    · obtain rfl | ne := eq_or_ne j k
      · rw [pinsOfSub_write, h x l List.mem_cons_self]
        cases x
        exacts [.inl rfl, .inr rfl]
      · cases x <;> simpa [pinsOfSub, ne] using hp
    · exact hp
    · exact hp

theorem inactiveAtRest_of_bothRest {cfg : Config} {c : SubChan} (ha : c.levelA = restLevel cfg)
    (hb : c.levelB = restLevel cfg) : c.inactiveAtRest cfg := by
  unfold SubChan.inactiveAtRest
  split
  exacts [hb, ha]

/-- SUB_MOTOR's rule rests the old side before it drives the other one (43_sub_channel R151, R157). -/
theorem staysExclusive_movedSubEvents {cfg : Config} {c : SubChan} (h : c.inactiveAtRest cfg) (v : Volts) (k : Nat)
    (d1 : Int) : StaysExclusive cfg k (c.levelA, c.levelB) (movedSubEvents cfg v k c d1) := by
  rw [inactiveAtRest_iff] at h
  unfold movedSubEvents activeAfter
  split
  · simp only [List.cons_append, List.nil_append, staysExclusive_cons, staysExclusive_nil, pinsOfSub_write]
    exact ⟨h.oneAtRest, (h.release c.active).oneAtRest, ((h.release (sideOf d1)).drive _).oneAtRest⟩
  · simp only [List.nil_append, staysExclusive_cons, staysExclusive_nil, pinsOfSub_write]
    exact ⟨h.oneAtRest, (h.drive _).oneAtRest⟩

theorem inactiveAtRest_movedSub {cfg : Config} {c : SubChan} (h : c.inactiveAtRest cfg) (v : Volts) (d1 : Int) :
    (movedSub cfg v c d1).inactiveAtRest cfg := by
  rw [inactiveAtRest_iff] at h
  rw [movedSub_eq, inactiveAtRest_iff, levels_withLevel]
  apply restBeside.drive
  unfold activeAfter
  split
  · rw [levels_withLevel]
    exact h.release (sideOf d1)
  · exact h

/-- A solenoid pattern rests one pin before it asserts the other (43_sub_channel R159). -/
theorem staysExclusive_switched {cfg : Config} {c : SubChan} (h : oneAtRest cfg (c.levelA, c.levelB)) (k : Nat)
    (on : Bool) (now : Instant) : StaysExclusive cfg k (c.levelA, c.levelB) (switched cfg k c on now).2 := by
  have pattern : StaysExclusive cfg k (c.levelA, c.levelB) (patternEvents cfg k on) := by
    cases on <;> simp only [patternEvents, if_true, if_neg Bool.false_ne_true, staysExclusive_cons,
      staysExclusive_nil, pinsOfSub_write]
    · exact ⟨h, .inr rfl, .inr rfl⟩
    · exact ⟨h, .inl rfl, .inl rfl⟩
  obtain eq | eq | eq | eq := switched_cases cfg k c on now <;> rw [eq]
  · exact staysExclusive_nil.mpr h
  · exact pattern
  · exact staysExclusive_of_subWritesRest (by simp [subWritesRest]; tauto) h
  · exact pattern

theorem oneAtRest_patternOf (cfg : Config) (c : SubChan) (on : Bool) :
    oneAtRest cfg ((patternOf cfg c on).levelA, (patternOf cfg c on).levelB) := by
  cases on
  exacts [.inr rfl, .inl rfl]

theorem oneAtRest_switched {cfg : Config} {c : SubChan} (h : oneAtRest cfg (c.levelA, c.levelB)) (k : Nat)
    (on : Bool) (now : Instant) :
    oneAtRest cfg ((switched cfg k c on now).1.levelA, (switched cfg k c on now).1.levelB) := by
  obtain eq | eq | eq | eq := switched_cases cfg k c on now <;> rw [eq]
  · exact h
  · exact oneAtRest_patternOf cfg c on
  · exact .inl rfl
  · exact oneAtRest_patternOf cfg c on

theorem runsSolenoid.requests {cfg : Config} {k : Nat} {on : Bool} {i : Instr} (h : runsSolenoid cfg k on i) :
    requestsSolenoid cfg k i := by
  obtain rfl | ⟨rfl, -⟩ | ⟨rfl, -⟩ | ⟨d, rfl, hd, -⟩ := h
  exacts [rfl, rfl, rfl, ⟨rfl, hd⟩]

/-- The sequencer routes each word itself: it issues no SUB_DISPATCH (30_encoding R84). -/
theorem Issues.ne_subDispatch {s : State} {i : Instr} (h : Issues s i) (k : Nat) (d : Int) :
    i ≠ .subDispatch k d := by
  cases h with
  | slot _ c e =>
    obtain ⟨m, -, h⟩ | ⟨k, -, h | h | ⟨h, -⟩⟩ := select_cases s.cfg c e <;> simp [h]
  | _ => simp

end Pins

/-- Settles O35: without a solenoid request a step gives the channel rest writes or SUB_MOTOR's. -/
theorem motorOnlyPinsStayExclusive : Obligations.MotorOnlyPinsStayExclusive := by
  intro s t k c _ h hc inactive quiet
  obtain ⟨i, u, -, issue, effect, rfl⟩ := step_issues h
  rw [advance_subs, advance_events]
  obtain ⟨c', new, hc', events, ⟨rest, eq⟩ | ⟨d, d1, -, rfl, rfl⟩ | ⟨on, run, -⟩⟩ := effect.subChannel_cases hc
  · refine ⟨c', new, hc', ?_, events,
      staysExclusive_of_subWritesRest rest (inactiveAtRest_iff.mp inactive).oneAtRest⟩
    obtain rfl | rfl := eq
    · exact inactive
    · exact inactiveAtRest_of_bothRest rfl rfl
  · exact ⟨_, _, hc', inactiveAtRest_movedSub inactive _ d1, events, staysExclusive_movedSubEvents inactive _ k d1⟩
  · exact absurd run.requests (quiet i issue)

/-- Settles O36: without a motor word a step gives the channel rest writes or SOLENOID_SWITCH's. -/
theorem solenoidOnlyPinsStayExclusive : Obligations.SolenoidOnlyPinsStayExclusive := by
  intro s t k c _ h hc atRest quiet
  obtain ⟨i, u, issues, issue, effect, rfl⟩ := step_issues h
  rw [advance_subs, advance_events]
  obtain ⟨c', new, hc', events, ⟨rest, eq⟩ | ⟨d, d1, run, -⟩ | ⟨on, -, rfl, rfl⟩⟩ := effect.subChannel_cases hc
  · refine ⟨c', new, hc', ?_, events, staysExclusive_of_subWritesRest rest atRest⟩
    obtain rfl | rfl := eq
    exacts [atRest, .inl rfl]
  · obtain rfl | rfl := run.form
    exacts [absurd issue (quiet d), absurd rfl (issues.ne_subDispatch k d)]
  · exact ⟨_, _, hc', oneAtRest_switched atRest k on _, events, staysExclusive_switched atRest k on _⟩

end Sys2Proof.Machine

/-! # 20_memory: the frame buffer and the transport

A buffer in canonical form is determined by what it reads; DECODE and FETCH_FRAME are read off their closed
forms (`execDecode_eq`, `execFetchFrame_eq`), which hold on every state. -/

namespace Sys2Proof.Machine

section CanonicalForm
variable {size lo k : Nat} {v : Byte} {m rest : List Host.Cell}

theorem memWfFrom_cons_iff : memWfFrom size lo ((k, v) :: rest) = true
    ↔ lo ≤ k ∧ k < size ∧ v ≠ 0 ∧ memWfFrom size (k + 1) rest = true := by
  simp [memWfFrom, and_assoc]

theorem memWfFrom_tail (h : memWfFrom size lo ((k, v) :: rest) = true) : memWfFrom size (k + 1) rest = true := by
  obtain ⟨-, -, -, tail⟩ := memWfFrom_cons_iff.mp h
  exact tail

@[simp] theorem memGet_head : memGet ((k, v) :: rest) k = v := if_pos rfl

/-- A byte that reads non-zero lies at or above the first listed address. -/
theorem head_le_of_memGet_ne_zero (h : memWfFrom size lo ((k, v) :: rest) = true) {x : Nat}
    (hx : memGet ((k, v) :: rest) x ≠ 0) : k ≤ x := by
  obtain ⟨-, hk, hv, tail⟩ := memWfFrom_cons_iff.mp h
  by_contra lt
  exact hx (memGet_below size k _ (memWfFrom_cons_iff.mpr ⟨le_rfl, hk, hv, tail⟩) x (not_le.mp lt))

/-- The tail of a canonical memory reads as the whole does, but for the first listed address. -/
theorem memGet_tail (h : memWfFrom size lo ((k, v) :: rest) = true) (x : Nat) :
    memGet rest x = if x = k then 0 else memGet ((k, v) :: rest) x := by
  split
  · next hx => exact memGet_below size (k + 1) rest (memWfFrom_tail h) x (by omega)
  · next hx => exact (if_neg (Ne.symm hx)).symm

/-- A memory in canonical form that lists an address does not read as the empty one. -/
theorem memGet_head_ne_zero (h : memWfFrom size lo ((k, v) :: rest) = true) : memGet ((k, v) :: rest) k ≠ 0 := by
  obtain ⟨-, -, hv, -⟩ := memWfFrom_cons_iff.mp h
  rwa [memGet_head]

/-- Memories in canonical form that read alike are equal: their first addresses are the least one that reads
non-zero, and without it their tails read alike. -/
theorem memWfFrom_ext {lo' : Nat} {m' : List Host.Cell} (h : memWfFrom size lo m = true)
    (h' : memWfFrom size lo' m' = true) (alike : ∀ x, memGet m x = memGet m' x) : m = m' := by
  induction m generalizing lo lo' m' with
  | nil =>
    cases m' with
    | nil => rfl
    | cons c' rest' => exact absurd (alike c'.1).symm (memGet_head_ne_zero h')
  | cons c rest ih =>
    cases m' with
    | nil => exact absurd (alike c.1) (memGet_head_ne_zero h)
    | cons c' rest' =>
      obtain ⟨k, v⟩ := c
      obtain ⟨k', v'⟩ := c'
      have le : k' ≤ k := head_le_of_memGet_ne_zero h' (alike k ▸ memGet_head_ne_zero h)
      have ge : k ≤ k' := head_le_of_memGet_ne_zero h (alike k' ▸ memGet_head_ne_zero h')
      obtain rfl : k = k' := le_antisymm ge le
      obtain rfl : v = v' := by simpa using alike k
      have tails : ∀ x, memGet rest x = memGet rest' x := fun x => by
        rw [memGet_tail h, memGet_tail h', alike]
      rw [ih (memWfFrom_tail h) (memWfFrom_tail h') tails]

end CanonicalForm

/-- Settles O9: the write's laws, and that a canonical buffer is determined by its bytes. -/
theorem frameBufferReadsBackWhatIsWritten : Obligations.FrameBufferReadsBackWhatIsWritten := by
  intro size a b m h ha
  exact ⟨memSet_keeps_wf size a b m h ha, memGet_memSet size a b m h, fun _ h' alike => memWfFrom_ext h h' alike⟩

/-- Settles O10, from what DECODE computes on every state. -/
theorem decodeReadsLittleEndianDuties : Obligations.DecodeReadsLittleEndianDuties := by
  intro s
  refine ⟨_, execDecode_eq s, by simp, fun i hi => ?_⟩
  simp [List.getElem?_range hi, sext16, wordOfBytes]

section Fetch
variable {s : State}

theorem execFetchFrame_refused {f : Frame} (hf : f ∈ s.handedOver) (hl : f.length ≠ s.frameSize) :
    execFetchFrame s = .refused .frameLength := by
  rw [execFetchFrame_eq, if_neg fun all => hl (all f hf)]

/-- With complete frames only, the newest one handed over becomes the buffer and the slot is emptied. -/
theorem execFetchFrame_newest {f : Frame} (all : ∀ g ∈ s.handedOver, g.length = s.frameSize)
    (newest : s.handedOver.getLast? = some f) :
    execFetchFrame s = .next { s with frame := memOfBytes 0 f, pending := none, env := s.envAfterFetch } := by
  rw [execFetchFrame_eq, if_pos all, newest]

/-- Complete frames all have their move, and the last of them is pending. -/
theorem deliverAll_complete {fs : List Frame} {f : Frame} (all : ∀ g ∈ fs, g.length = s.frameSize)
    (last : fs.getLast? = some f) : deliverAll fs s = .next (s.hold f) := by
  rw [deliverAll_eq, if_pos all, last]
  rfl

/-- When the script delivers nothing before the fetch, the pending frame alone is handed over. -/
theorem handedOver_hold {ds : List (List Frame)} (quiet : s.env.deliveries = [] :: ds) (f : Frame) :
    (s.hold f).handedOver = [f] := by
  simp [State.handedOver, State.delivered, State.hold, quiet]

end Fetch

/-- Settles O12: both ask for complete frames, the fetch for every one handed over. -/
theorem fetchRefusesAFrameOfAnotherLength : Obligations.FetchRefusesAFrameOfAnotherLength :=
  fun _ _ hl => ⟨if_neg hl, fun hf => execFetchFrame_refused hf hl⟩

/-- Settles O13: after both moves the second frame is the one pending, and the fetch takes it. -/
theorem ofTwoDeliveriesTheLaterIsSeen : Obligations.OfTwoDeliveriesTheLaterIsSeen := by
  intro s x y ds quiet hx hy
  have moves : deliverAll [x, y] s = .next (s.hold y) := deliverAll_complete (by simp [hx, hy]) rfl
  have handed := handedOver_hold quiet y
  have complete : ∀ g ∈ (s.hold y).handedOver, g.length = (s.hold y).frameSize := by
    rw [handed]
    exact List.forall_mem_singleton.mpr hy
  have fetch := execFetchFrame_newest complete (f := y) (by rw [handed]; rfl)
  refine ⟨_, by rw [moves]; exact fetch, rfl, fun a => ?_⟩
  simpa using memGet_memOfBytes 0 y a

end Sys2Proof.Machine

/-! # 30_encoding: words, slots and the operations they select

Both directions between words and instructions rest on one correspondence, said for duties: the duty that
spells a well-formed instruction selects it in its slot (`select_of_encodeDuty`), and the operation that a
duty selects is spelled by that duty (`encodeDuty_select`, `slotIndex_select`). -/

namespace Sys2Proof.Machine

variable {c : Config} {k : Nat} {d : Int}

/-- A word is determined by its duty, and every 16-bit duty has one (00_scope R9). -/
theorem sext16_eq_iff {w : Word16} : sext16 w = d ↔ inWordRange d ∧ w = enc16 d := by
  constructor
  · rintro rfl
    exact ⟨sext16_inWordRange w, (enc16_sext16 w).symm⟩
  · rintro ⟨fits, rfl⟩
    exact sext16_enc16 d fits

theorem bytesOf_wordOfBytes (lo hi : Byte) : bytesOf (wordOfBytes lo hi) = [lo, hi] := by
  rw [bytesOf, lowByte_wordOfBytes, highByte_wordOfBytes]

/-- The two bytes at a slot select the operation of their little-endian signed word (30_encoding R86). -/
theorem decode_cons_cons {slot : Slot} (at_slot : slotAt c k = some slot) (lo hi : Byte) (rest : List Byte) :
    decode c k (lo :: hi :: rest) = .ok (select c slot (sext16 (wordOfBytes lo hi)), rest) := by
  simpa [bytesOf_wordOfBytes] using decode_bytesOf c k (wordOfBytes lo hi) rest slot at_slot

/-- Every word of the frame has a slot (30_encoding R82). -/
theorem exists_slotAt (hk : k < c.numWords) : ∃ slot, slotAt c k = some slot := by
  obtain ⟨-, h⟩ | ⟨s, -, -, h⟩ := slotAt_cases c k hk
  exacts [⟨_, h⟩, ⟨_, h⟩]

theorem eq_of_slotAt_main {m : Nat} (h : slotAt c k = some (.main m)) : k = m := by
  unfold slotAt at h
  split at h
  · cases h; rfl
  · split at h <;> cases h

theorem eq_of_slotAt_sub {s : Nat} (h : slotAt c k = some (.sub s)) : k = c.numMain + s := by
  unfold slotAt at h
  split at h
  · cases h
  · split at h <;> cases h
    omega

/-- The operation of a slot is spelled at that slot (30_encoding R82). -/
theorem slotIndex_select {slot : Slot} (at_slot : slotAt c k = some slot) (d : Int) :
    slotIndex c (select c slot d) = some k := by
  obtain ⟨m, rfl, h⟩ | ⟨s, rfl, h | h | ⟨h, -⟩⟩ := select_cases c slot d <;> rw [h]
  · rw [eq_of_slotAt_main at_slot]; rfl
  all_goals rw [eq_of_slotAt_sub at_slot]; rfl

section WellFormed
/-! The operands of the four encoded operations (42_main_channel R130, 43_sub_channel R151, R154, R155). -/

theorem wf_subSolOn_iff : (Instr.subSolOn k).wf c = true ↔ k < c.numSub := decide_eq_true_iff

theorem wf_subSolOff_iff : (Instr.subSolOff k).wf c = true ↔ k < c.numSub := decide_eq_true_iff

theorem wf_subMotor_iff :
    (Instr.subMotor k d).wf c = true ↔ k < c.numSub ∧ inWordRange d ∧ ¬ isSentinel c d := by
  rw [Instr.wf, Bool.and_eq_true, Bool.and_eq_true, Bool.not_eq_true', decide_eq_false_iff_not,
    decide_eq_true_iff, decide_eq_true_iff, and_assoc]

theorem wf_mainDrive_iff : (Instr.mainDrive k d).wf c = true ↔ k < c.numMain ∧ inWordRange d := by
  rw [Instr.wf, Bool.and_eq_true, decide_eq_true_iff, decide_eq_true_iff]

end WellFormed

section Sentinels
/-! The sentinel test by value (30_encoding R84, R85). -/
variable (legal : c.legal = true)
include legal

theorem dutyMax_bounds : 1 ≤ c.dutyMax ∧ c.dutyMax ≤ 32767 := by
  obtain ⟨low, high, -⟩ := c.legal_iff.mp legal
  exact ⟨low, high⟩

theorem isSentinel_iff : isSentinel c d ↔ d = c.dutyMax + 1 ∨ d = -(c.dutyMax + 1) := by
  have := dutyMax_bounds legal
  unfold isSentinel
  omega

/-- The sentinel of SUB_SOL_OFF always has a word (30_encoding R85). -/
theorem offSentinel_inWordRange : inWordRange (-(c.dutyMax + 1)) := by
  have := dutyMax_bounds legal
  unfold inWordRange
  omega

/-- The sentinel of SUB_SOL_ON has a word unless `DUTY_MAX` is 32767 (30_encoding R85). -/
theorem onSentinel_inWordRange_iff : inWordRange (c.dutyMax + 1) ↔ c.dutyMax ≤ 32766 := by
  have := dutyMax_bounds legal
  unfold inWordRange
  omega

theorem selectSub_eq_subSolOn_iff : selectSub c k d = .subSolOn k ↔ d = c.dutyMax + 1 := by
  have := dutyMax_bounds legal
  obtain ⟨hd, -, h⟩ | ⟨hd, neg, h⟩ | ⟨hd, h⟩ := selectSub_cases c k d <;> rw [h]
  · exact iff_of_true rfl hd
  · exact iff_of_false nofun (by omega)
  · exact iff_of_false nofun fun on => hd ((isSentinel_iff legal).mpr (.inl on))

theorem selectSub_eq_subSolOff_iff : selectSub c k d = .subSolOff k ↔ d = -(c.dutyMax + 1) := by
  have := dutyMax_bounds legal
  obtain ⟨hd, -, h⟩ | ⟨hd, neg, h⟩ | ⟨hd, h⟩ := selectSub_cases c k d <;> rw [h]
  · exact iff_of_false nofun (by omega)
  · exact iff_of_true rfl (((isSentinel_iff legal).mp hd).resolve_left (by omega))
  · exact iff_of_false nofun fun off => hd ((isSentinel_iff legal).mpr (.inr off))

end Sentinels

theorem selectSub_eq_subMotor_iff : selectSub c k d = .subMotor k d ↔ ¬ isSentinel c d := by
  obtain ⟨hd, pos, h⟩ | ⟨hd, -, h⟩ | ⟨hd, h⟩ := selectSub_cases c k d <;> rw [h]
  · exact iff_of_false nofun (not_not_intro (by unfold isSentinel; omega))
  · exact iff_of_false nofun (not_not_intro hd)
  · exact iff_of_true rfl hd

section Correspondence
variable {i : Instr} (legal : c.legal = true)
include legal

/-- The duty that spells a well-formed instruction is a 16-bit one and selects it in its slot. -/
theorem select_of_encodeDuty (wf : i.wf c = true) (spelled : encodeDuty c i = some d)
    (at_k : slotIndex c i = some k) :
    inWordRange d ∧ ∃ slot, slotAt c k = some slot ∧ select c slot d = i := by
  cases i with
  | subSolOn s =>
    cases at_k
    obtain ⟨fits, rfl⟩ : c.dutyMax + 1 ≤ 32767 ∧ c.dutyMax + 1 = d := by simpa [encodeDuty] using spelled
    exact ⟨(onSentinel_inWordRange_iff legal).mpr (by omega), _, slotAt_sub c s (wf_subSolOn_iff.mp wf),
      (selectSub_eq_subSolOn_iff legal).mpr rfl⟩
  | subSolOff s =>
    cases at_k
    cases spelled
    exact ⟨offSentinel_inWordRange legal, _, slotAt_sub c s (wf_subSolOff_iff.mp wf),
      (selectSub_eq_subSolOff_iff legal).mpr rfl⟩
  | subMotor s d =>
    cases at_k
    cases spelled
    obtain ⟨lt, fits, plain⟩ := wf_subMotor_iff.mp wf
    exact ⟨fits, _, slotAt_sub c s lt, selectSub_eq_subMotor_iff.mpr plain⟩
  | mainDrive m d =>
    cases at_k
    cases spelled
    obtain ⟨lt, fits⟩ := wf_mainDrive_iff.mp wf
    exact ⟨fits, _, slotAt_main c _ lt, rfl⟩
  | _ => cases spelled

/-- The word that spells a well-formed instruction decodes to it at its slot. -/
theorem decode_enc16 (wf : i.wf c = true) (spelled : encodeDuty c i = some d) (at_k : slotIndex c i = some k)
    (rest : List Byte) : decode c k (bytesOf (enc16 d) ++ rest) = .ok (i, rest) := by
  obtain ⟨fits, slot, at_slot, selected⟩ := select_of_encodeDuty legal wf spelled at_k
  rw [decode_bytesOf c k _ rest slot at_slot, sext16_enc16 d fits, selected]

/-- The operation that a 16-bit duty selects is spelled by that duty: a sentinel duty is the sentinel. -/
theorem encodeDuty_select (slot : Slot) (fits : inWordRange d) : encodeDuty c (select c slot d) = some d := by
  cases slot with
  | main m => rfl
  | sub s =>
    obtain ⟨rfl, -, h⟩ | ⟨hd, neg, h⟩ | ⟨-, h⟩ := selectSub_cases c s d <;> simp only [select, h, encodeDuty]
    · exact if_pos fits.2
    · obtain rfl := (selectSub_eq_subSolOff_iff legal).mp h
      rfl

end Correspondence

/-- Settles O1: the duty that spells the instruction selects it. -/
theorem decodeOfEncodeIsIdentity : Obligations.DecodeOfEncodeIsIdentity := by
  intro c i bs rest k legal wf encoded at_k
  obtain ⟨d, spelled, rfl⟩ := Option.map_eq_some_iff.mp encoded
  exact decode_enc16 legal wf spelled at_k rest

/-- Settles O2: every slot selects an operation for the word's duty, and that duty spells it. -/
theorem encodeOfDecodeGivesTheWordBack : Obligations.EncodeOfDecodeGivesTheWordBack := by
  intro c k lo hi rest legal hk
  obtain ⟨slot, at_slot⟩ := exists_slotAt hk
  have fits := sext16_inWordRange (wordOfBytes lo hi)
  refine ⟨_, decode_cons_cons at_slot lo hi rest, select_wf at_slot fits, slotIndex_select at_slot _, ?_⟩
  rw [encode, encodeDuty_select legal slot fits, Option.map_some, enc16_sext16, bytesOf_wordOfBytes]

/-- Settles O4: a main slot selects by `select`'s first case, and MAIN_DRIVE's one flag is that of its duty. -/
theorem mainSlotWordsSelectMainDrive : Obligations.MainSlotWordsSelectMainDrive := by
  intro c m lo hi hm
  refine ⟨decode_cons_cons (slotAt_main c m hm) lo hi [], ?_⟩
  rintro s t rfl ran
  exact (exec_effect (.mainDrive m _) s t nofun ran).fRange_eq

/-- Settles O5, from the sentinel chain of `selectSub`. -/
theorem subSlotWordsSelectByMagnitude : Obligations.SubSlotWordsSelectByMagnitude :=
  fun c k lo hi hk => decode_cons_cons (slotAt_sub c k hk) lo hi []

theorem decode_sub_eq_ok_iff (hk : k < c.numSub) (w : Word16) (i : Instr) :
    decode c (c.numMain + k) (bytesOf w) = .ok (i, []) ↔ selectSub c k (sext16 w) = i := by
  have decoded : decode c (c.numMain + k) (bytesOf w) = .ok (selectSub c k (sext16 w), []) :=
    decode_bytesOf c _ w [] _ (slotAt_sub c k hk)
  simp [decoded]

/-- Settles O6: a word is a sentinel word exactly when its duty is the sentinel. -/
theorem sentinelWordsOfEveryDutyMax : Obligations.SentinelWordsOfEveryDutyMax := by
  intro c k legal hk
  refine ⟨?_, rfl, fun h => by rw [h]; decide, fun h => by rw [h]; decide, fun w => ?_⟩
  · have fits : c.dutyMax + 1 ≤ 32767 ↔ c.dutyMax ≤ 32766 := by omega
    simp only [encode, encodeDuty, fits]
    split <;> rfl
  have isOn : sext16 w = c.dutyMax + 1 ↔ c.dutyMax ≤ 32766 ∧ w = enc16 (c.dutyMax + 1) := by
    rw [sext16_eq_iff, onSentinel_inWordRange_iff legal]
  have isOff : sext16 w = -(c.dutyMax + 1) ↔ w = enc16 (-(c.dutyMax + 1)) := by
    rw [sext16_eq_iff, and_iff_right (offSentinel_inWordRange legal)]
  simp only [decode_sub_eq_ok_iff hk]
  refine ⟨(selectSub_eq_subSolOn_iff legal).trans isOn, (selectSub_eq_subSolOff_iff legal).trans isOff, ?_⟩
  calc selectSub c k (sext16 w) = .subMotor k (sext16 w)
      ↔ ¬ isSentinel c (sext16 w) := selectSub_eq_subMotor_iff
    _ ↔ ¬ (sext16 w = c.dutyMax + 1) ∧ ¬ (sext16 w = -(c.dutyMax + 1)) := by rw [isSentinel_iff legal, not_or]
    _ ↔ ¬ (c.dutyMax ≤ 32766 ∧ w = enc16 (c.dutyMax + 1)) ∧ w ≠ enc16 (-(c.dutyMax + 1)) := by rw [isOn, isOff]

/-- A word written as two bytes into a canonical frame buffer is read back (20_memory R61, R63). -/
theorem wordOfBytes_memSet_memSet {size i : Nat} {m : List Host.Cell} (canonical : memWf size m = true)
    (hi : 2 * i < size) (w : Word16) :
    let written := memSet (memSet m (2 * i) (lowByte w)) (2 * i + 1) (highByte w)
    wordOfBytes (memGet written (2 * i)) (memGet written (2 * i + 1)) = w := by
  have canonical' := memSet_keeps_wf size (2 * i) (lowByte w) m canonical hi
  simp [memGet_memSet _ _ _ _ canonical', memGet_memSet _ _ _ _ canonical, wordOfBytes_bytes]

/-- Settles O7: DECODE reads back the word that was written, and it is the duty's. -/
theorem dutyBytesRoundTrip : Obligations.DutyBytesRoundTrip := by
  intro s i v low high hi canonical
  have lt : 2 * i < s.frameSize := Nat.mul_lt_mul_of_pos_left hi two_pos
  refine ⟨_, execDecode_eq _, ?_⟩
  rw [List.getElem?_map, List.getElem?_range hi, Option.map_some]
  exact congrArg some <| (congrArg sext16 (wordOfBytes_memSet_memSet canonical lt (enc16 v))).trans
    (sext16_enc16 v ⟨low, high⟩)

section Assembler
/-! An item is accepted exactly when the instruction of its row is well formed and, for a solenoid-on item,
has an encoding; what it becomes is that instruction's word at its slot (30_encoding R92). -/
variable {i : Nat} {w : Word16}

theorem guardedWord_eq_some_iff {p : Prop} [Decidable p] {n : Nat} {v : Word16} :
    (if p then some (n, v) else none) = some (i, w) ↔ p ∧ i = n ∧ w = v := by
  rw [Option.ite_none_right_eq_some, Option.some.injEq, Prod.mk.injEq, @eq_comm _ i, @eq_comm _ w]

theorem expand_drive_eq_some_iff :
    expand c (.drive k d) = some (i, w) ↔ (Instr.mainDrive k d).wf c = true ∧ i = k ∧ w = enc16 d := by
  rw [wf_mainDrive_iff, expand, expandDrive, guardedWord_eq_some_iff]

theorem expand_motor_eq_some_iff :
    expand c (.motor k d) = some (i, w)
      ↔ (Instr.subMotor k d).wf c = true ∧ i = c.numMain + k ∧ w = enc16 d := by
  rw [wf_subMotor_iff, expand, expandMotor, guardedWord_eq_some_iff]

theorem expand_solOn_eq_some_iff :
    expand c (.solOn k) = some (i, w) ↔ ((Instr.subSolOn k).wf c = true ∧ c.dutyMax + 1 ≤ 32767)
      ∧ i = c.numMain + k ∧ w = enc16 (c.dutyMax + 1) := by
  rw [wf_subSolOn_iff, expand, guardedWord_eq_some_iff]

theorem expand_solOff_eq_some_iff :
    expand c (.solOff k) = some (i, w)
      ↔ (Instr.subSolOff k).wf c = true ∧ i = c.numMain + k ∧ w = enc16 (-(c.dutyMax + 1)) := by
  rw [wf_subSolOff_iff, expand, guardedWord_eq_some_iff]

end Assembler

/-- Settles O8: an accepted item is the word of its row's instruction, which `decode_enc16` decodes back. -/
theorem pseudoInstructionsSelectTheirOperations : Obligations.PseudoInstructionsSelectTheirOperations := by
  intro c legal
  refine ⟨fun m d i w h => ?_, fun k d i w h => ?_, fun k i w h => ?_, fun k i w h => ?_, fun _ => rfl, fun _ => rfl,
    fun k d sentinel => ?_, fun k top => ?_, fun m d lt low high => ?_, fun k d lt low high plain => ?_,
    fun k lt => ⟨?_, fun notTop => ?_⟩⟩
  · obtain ⟨wf, rfl, rfl⟩ := expand_drive_eq_some_iff.mp h
    exact ⟨rfl, rfl, decode_enc16 legal wf rfl rfl []⟩
  · obtain ⟨wf, rfl, rfl⟩ := expand_motor_eq_some_iff.mp h
    exact ⟨rfl, rfl, decode_enc16 legal wf rfl rfl []⟩
  · obtain ⟨⟨wf, fits⟩, rfl, rfl⟩ := expand_solOn_eq_some_iff.mp h
    exact ⟨rfl, rfl, decode_enc16 legal wf (if_pos fits) rfl []⟩
  · obtain ⟨wf, rfl, rfl⟩ := expand_solOff_eq_some_iff.mp h
    exact ⟨rfl, rfl, decode_enc16 legal wf rfl rfl []⟩
  · exact if_neg fun ⟨_, _, plain⟩ => plain sentinel
  · exact if_neg fun ⟨_, fits⟩ => by omega
  · exact Option.isSome_of_eq_some
      (expand_drive_eq_some_iff.mpr ⟨wf_mainDrive_iff.mpr ⟨lt, low, high⟩, rfl, rfl⟩)
  · exact Option.isSome_of_eq_some
      (expand_motor_eq_some_iff.mpr ⟨wf_subMotor_iff.mpr ⟨lt, ⟨low, high⟩, plain⟩, rfl, rfl⟩)
  · exact Option.isSome_of_eq_some (expand_solOff_eq_some_iff.mpr ⟨wf_subSolOff_iff.mpr lt, rfl, rfl⟩)
  · obtain ⟨-, high⟩ := dutyMax_bounds legal
    exact Option.isSome_of_eq_some
      (expand_solOn_eq_some_iff.mpr ⟨⟨wf_subSolOn_iff.mpr lt, by omega⟩, rfl, rfl⟩)

/-- Settles O3: the reference configuration and the six words are closed values, so the decoder evaluates. -/
theorem writtenOutWordsDecode : Obligations.WrittenOutWordsDecode :=
  ⟨rfl, rfl, rfl, rfl, rfl, rfl⟩

/-- In a decoded frame a slot's duty is that of its two bytes (44_decoder_and_cycle R180). -/
theorem duty_of_frameDuties {s : State} (decoded : s.frameDuties = some s.duty) (hk : k < s.cfg.numWords) :
    s.duty[k]? = some (sext16 (wordOfBytes (memGet s.frame (2 * k)) (memGet s.frame (2 * k + 1)))) := by
  rw [s.frameDuties_eq, Option.some.injEq] at decoded
  simp [← decoded, List.getElem?_range hk]

/-- After the operation of a slot the sequencer stands at the next slot, or at SLEEP (44_decoder_and_cycle R182). -/
theorem advance_slot {s : State} (loop : s.phase = .loop) (at_k : s.stage = .slot k) (t : State) :
    advance s t = { t with stage := slotOrSleep s.cfg (k + 1) } := by
  rw [advance_loop s t loop, at_k]
  rfl

/-- Settles O44: the slot's decoded duty selects what its two bytes decode to, and O2 gives its shape. -/
theorem stepRunsTheDecodedWord : Obligations.StepRunsTheDecodedWord := by
  intro s k i legal loop at_k hk decoded word
  obtain ⟨i', word', wf, index, -⟩ := encodeOfDecodeGivesTheWordBack s.cfg k (memGet s.frame (2 * k))
    (memGet s.frame (2 * k + 1)) [] legal hk
  obtain rfl : i' = i := by simpa [word] using word'.symm
  refine ⟨wf, index, ?_⟩
  have issue : issued s = .ok i' := by
    obtain ⟨slot, at_slot⟩ := exists_slotAt hk
    rw [issued_loop s loop, at_k]
    rw [decode_cons_cons at_slot] at word
    simp only [slotOperation_eq s k _ slot at_slot (duty_of_frameDuties decoded hk)]
    simpa using word
  rw [step_eq s i' legal issue]
  cases exec i' s with
  | next t => exact congrArg _ (advance_slot loop at_k t)
  | fault => rfl
  | refused => rfl

end Sys2Proof.Machine

/-! # 40_voltage_sampler: VSAMPLE and VSAMPLE_FILT

Both operations draw one raw sample and write the registers of one file: each is said once as an equation in
the primitives `drawRaw`, `setVNow` and `setFilter`, and the floor's three facts are said for every voltage. -/

namespace Sys2Proof.Machine

section Sampler
variable {s : State}

/-- The script's next answer is the one given, when the ADC can give it (40_voltage_sampler R105; log 6). -/
theorem State.nextRaw_of_adc_cons {r : Nat} {rest : List Nat} (script : s.env.adc = r :: rest)
    (inRange : r ≤ s.cfg.rawMax) : s.nextRaw = r := by
  simp [State.nextRaw, State.drawRaw, script, inRange]

/-- The floor clamp: never below `V_MIN`, `V_MIN` at or below it, and no change at or above it
(40_voltage_sampler R102). -/
theorem floorVolts_laws (c : Config) (v : Volts) :
    c.vMin ≤ floorVolts c v ∧ (v ≤ c.vMin → floorVolts c v = c.vMin) ∧ (c.vMin ≤ v → floorVolts c v = v) :=
  ⟨le_max_right _ _, max_eq_right, max_eq_left⟩

theorem exec_vsample (s : State) :
    exec .vsample s = .next (s.drawRaw.2.setVNow (floorVolts s.cfg (rawVolts s.cfg s.nextRaw))) := rfl

/-- The blend `e` and its floor `r` are the pseudocode's (40_voltage_sampler R101). -/
theorem exec_vsampleFilt {e r : Volts} (blend : e = emaBlend s.cfg s.emaState (rawVolts s.cfg s.nextRaw))
    (floor : r = floorVolts s.cfg e) :
    exec .vsampleFilt s = .next (s.drawRaw.2.setFilter (if s.cfg.emaClampState then r else e) r) := by
  subst floor blend
  rfl

end Sampler

/-- Settles O16: each operation writes a floored voltage, so the floor's laws are the register's. -/
theorem sampledVoltagesAreFloored : Obligations.SampledVoltagesAreFloored := fun s =>
  ⟨⟨_, exec_vsample s, floorVolts_laws s.cfg _⟩, ⟨_, exec_vsampleFilt rfl rfl, floorVolts_laws s.cfg _⟩⟩

/-- Settles O14: the draw is within the ADC's range, and VSAMPLE floors its conversion. -/
theorem vsampleWritesTheFlooredVoltage : Obligations.VsampleWritesTheFlooredVoltage := fun s =>
  ⟨s.drawRaw_le, fun _ _ => State.nextRaw_of_adc_cons, exec_vsample s⟩

/-- Settles O15, from the pseudocode's equation with the blend and the floor written out. -/
theorem vsampleFiltBlendsAndFloors : Obligations.VsampleFiltBlendsAndFloors :=
  fun _ _ _ blend floor => exec_vsampleFilt blend floor

end Sys2Proof.Machine

/-! # 41_slew_limiter: SLEW_LIMIT and held duties

The limiter is followed by its distance from the request: one call takes `limit` off it, down to 0. A held duty
iterates the limiter, so every count of calls is read off that distance. A MAIN_DRIVE or SUB_MOTOR that is issued
again and again iterates the limiter on its channel's last duty. -/

namespace Sys2Proof.Machine

section SlewLimit
variable {req prev limit : Int}

/-- No call overshoots or goes back (41_slew_limiter R121 (c)). -/
theorem slewLimit_between (h : 0 ≤ limit) :
    min prev req ≤ slewLimit req prev limit ∧ slewLimit req prev limit ≤ max prev req := by
  obtain ⟨-, eq⟩ | ⟨up, eq⟩ | ⟨down, eq⟩ := slewLimit_cases req prev limit h <;> rw [eq] <;> omega

/-- One call changes the duty by at most `limit` (41_slew_limiter R121 (a)). -/
theorem natAbs_slewLimit_sub_prev_le (h : 0 ≤ limit) : ((slewLimit req prev limit - prev).natAbs : Int) ≤ limit := by
  obtain ⟨near, eq⟩ | ⟨up, eq⟩ | ⟨down, eq⟩ := slewLimit_cases req prev limit h <;> rw [eq] <;> omega

/-- One call takes `limit` off the distance from the request, down to 0. -/
theorem natAbs_sub_slewLimit (h : 0 ≤ limit) :
    ((req - slewLimit req prev limit).natAbs : Int) = max ((req - prev).natAbs - limit) 0 := by
  obtain ⟨near, eq⟩ | ⟨up, eq⟩ | ⟨down, eq⟩ := slewLimit_cases req prev limit h <;> rw [eq] <;> omega

/-- A call gives the request exactly when it is within the bound (41_slew_limiter R121 (b)). -/
theorem slewLimit_eq_req_iff (h : 0 ≤ limit) : slewLimit req prev limit = req ↔ ((req - prev).natAbs : Int) ≤ limit := by
  have distance := natAbs_sub_slewLimit (req := req) (prev := prev) h
  omega

/-- The duty stays exactly when it is the request or no change is allowed (41_slew_limiter R121 (d)). -/
theorem slewLimit_eq_prev_iff (h : 0 ≤ limit) : slewLimit req prev limit = prev ↔ req = prev ∨ limit = 0 := by
  obtain ⟨near, eq⟩ | ⟨up, eq⟩ | ⟨down, eq⟩ := slewLimit_cases req prev limit h <;> rw [eq] <;> omega

/-- `n` calls take `n * limit` off the distance from a held request, down to 0. -/
theorem natAbs_sub_iterate_slewLimit (h : 0 ≤ limit) (n : Nat) :
    ((req - (slewLimit req · limit)^[n] prev).natAbs : Int) = max ((req - prev).natAbs - n * limit) 0 := by
  induction n with
  | zero => simp
  | succ n ih =>
    rw [Function.iterate_succ_apply', natAbs_sub_slewLimit h, ih, Nat.cast_succ, add_one_mul]
    omega

/-- A held request is reached after exactly `ceil(|req - prev| / limit)` calls (41_slew_limiter R121 (e)). -/
theorem iterate_slewLimit_eq_req_iff (h : 1 ≤ limit) (n : Nat) :
    (slewLimit req · limit)^[n] prev = req ↔ ⌈((req - prev).natAbs : ℚ) / limit⌉ ≤ (n : Int) := by
  have positive : (0 : ℚ) < limit := by exact_mod_cast h
  calc (slewLimit req · limit)^[n] prev = req
      ↔ ((req - prev).natAbs : Int) ≤ n * limit := by
        have distance := natAbs_sub_iterate_slewLimit (req := req) (prev := prev) (by omega : 0 ≤ limit) n
        omega
    _ ↔ ((req - prev).natAbs : ℚ) ≤ n * limit := by
        rw [← Int.cast_le (R := ℚ), Int.cast_mul, Int.cast_natCast, Int.cast_natCast]
    _ ↔ ⌈((req - prev).natAbs : ℚ) / limit⌉ ≤ (n : Int) := by
        rw [Int.ceil_le, div_le_iff₀ positive, Int.cast_natCast]

end SlewLimit

/-- Settles O19: each law is one of the limiter's lemmas. -/
theorem slewLimitLaws : Obligations.SlewLimitLaws := by
  intro req prev limit reqFits prevFits h
  obtain ⟨low, high⟩ := slewLimit_between (req := req) (prev := prev) h
  exact ⟨natAbs_slewLimit_sub_prev_le h, (slewLimit_eq_req_iff h).mpr, low, high,
    slewLimit_inWordRange h reqFits prevFits, slewLimit_eq_prev_iff h, iterate_slewLimit_eq_req_iff⟩

section HeldDuty
variable {α : Type} {s : State} {k : Nat} {d : Int} {i : Instr} {chan : State → Option α} {prev : α → Int}

/-- Operation `i` moves the last duty `prev` of the channel `chan` by the limiter towards `d`. -/
def SlewsTowards (i : Instr) (d : Int) (chan : State → Option α) (prev : α → Int) : Prop :=
  ∀ (s : State) (c : α), chan s = some c →
    ∃ t c', exec i s = .next t ∧ chan t = some c' ∧ prev c' = slewLimit d (prev c) s.cfg.dutyDiffMax

/-- MAIN_DRIVE's rule stores the limited duty; on the fast path it is the stored one. -/
@[simp] theorem drivenMain_prev (cfg : Config) (v : Volts) (m : Nat) (d : Int) (c : MainChan) :
    (drivenMain cfg v m d c).1.prev = slewLimit d c.prev cfg.dutyDiffMax := by
  rw [drivenMain]
  split
  · exact Eq.symm ‹_›
  · rfl

/-- SUB_MOTOR's rule stores the limited duty; on the fast path it is the stored one. -/
@[simp] theorem drivenSub_prev (cfg : Config) (v : Volts) (k : Nat) (d : Int) (c : SubChan) :
    (drivenSub cfg v k d c).1.prev = slewLimit d c.prev cfg.dutyDiffMax := by
  rw [drivenSub]
  split
  · exact Eq.symm ‹_›
  · rfl

theorem exec_mainDrive_of_some {c : MainChan} (hc : s.mains[k]? = some c) :
    exec (.mainDrive k d) s = .next (s.write (.main k (drivenMain s.cfg s.vNow k d c).1 (outOfRange s.cfg d)
      (drivenMain s.cfg s.vNow k d c).2)) :=
  (Rule.run_eq (.main k d) s).trans (by rw [Rule.content, hc]; rfl)

theorem exec_subMotor_of_some {c : SubChan} (hc : s.subs[k]? = some c) :
    exec (.subMotor k d) s = .next (s.write (.motor k (drivenSub s.cfg s.vNow k d c).1 (outOfRange s.cfg d)
      (drivenSub s.cfg s.vNow k d c).2)) :=
  (Rule.run_eq (.motor k d) s).trans (by rw [Rule.content, hc]; rfl)

theorem mainDrive_slewsTowards (k : Nat) (d : Int) :
    SlewsTowards (.mainDrive k d) d (fun s => s.mains[k]?) MainChan.prev :=
  fun s c hc => ⟨_, _, exec_mainDrive_of_some hc, getElem?_set_at s.mains k c _ hc, drivenMain_prev ..⟩

theorem subMotor_slewsTowards (k : Nat) (d : Int) :
    SlewsTowards (.subMotor k d) d (fun s => s.subs[k]?) SubChan.prev :=
  fun s c hc => ⟨_, _, exec_subMotor_of_some hc, getElem?_set_at s.subs k c _ hc, drivenSub_prev ..⟩

/-- Repeating the operation iterates the limiter on the last duty: the step bound is the configuration's, which
no operation writes (10_state R38). -/
theorem SlewsTowards.iterate (slews : SlewsTowards i d chan prev) (n : Nat) {c : α} (hc : chan s = some c) :
    ∃ t c', repeatExec i n s = .next t ∧ chan t = some c'
      ∧ prev c' = (slewLimit d · s.cfg.dutyDiffMax)^[n] (prev c) := by
  induction n generalizing s c with
  | zero => exact ⟨s, c, rfl, hc, rfl⟩
  | succ n ih =>
    obtain ⟨u, b, once, hb, moved⟩ := slews s c hc
    obtain ⟨t, c', later, hc', reached⟩ := ih hb
    rw [configurationIsReadOnly i s u once, moved] at reached
    exact ⟨t, c', by rw [repeatExec, once, andThen_next, later], hc', reached⟩

/-- A channel holds a repeated duty after exactly `ceil(|d - p| / DUTY_DIFF_MAX)` operations
(70_reset_and_hazards R239). -/
theorem SlewsTowards.reaches_iff (slews : SlewsTowards i d chan prev) (n : Nat) (diff : 1 ≤ s.cfg.dutyDiffMax)
    {c : α} (hc : chan s = some c) : ∃ t c', repeatExec i n s = .next t ∧ chan t = some c'
      ∧ (prev c' = d ↔ ⌈((d - prev c).natAbs : ℚ) / s.cfg.dutyDiffMax⌉ ≤ (n : Int)) := by
  obtain ⟨t, c', run, hc', reached⟩ := slews.iterate n hc
  exact ⟨t, c', run, hc', reached ▸ iterate_slewLimit_eq_req_iff diff n⟩

end HeldDuty

/-- Settles O20: on either kind of channel the repeated operation iterates the limiter on the last duty. -/
theorem heldDutyIsReachedInCeilCalls : Obligations.HeldDutyIsReachedInCeilCalls := fun _ k n d diff =>
  ⟨fun _ => (mainDrive_slewsTowards k d).reaches_iff n diff, fun _ => (subMotor_slewsTowards k d).reaches_iff n diff⟩

/-- Settles O18: the statement is the operation's equation, with R120's pseudocode for the limiter. -/
theorem slewLimitReturnsTheLimitedDuty : Obligations.SlewLimitReturnsTheLimitedDuty :=
  fun _ _ _ _ => rfl

end Sys2Proof.Machine

/-! # 42_main_channel: MAIN_DRIVE, the main level, and absent channels

The level is a clamped rounding of `PWM_RESOLUTION` times the duty's share, and rounding and clamping are
monotone; so R135 rests on one fact, that the share does not increase with the voltage. The uncompensated
level is the level at the floor `V_MIN`. -/

namespace Sys2Proof.Machine

section MainLevel
variable {c : Config} {d : Int} {v w : ℚ}

/-- R131's fraction is `PWM_RESOLUTION` times the duty's share. -/
theorem pwmResolution_mul_dutyShare (c : Config) (d : Int) (v : ℚ) :
    (c.pwmResolution : ℚ) * dutyShare c d v
      = (c.pwmResolution : ℚ) * (d.natAbs : ℚ) * c.vMin / ((c.dutyMax : ℚ) * v) := by
  rw [dutyShare, ← mul_div_assoc, ← mul_assoc]

/-- `MainLevel` as R131 writes it. -/
theorem mainLevel_eq (c : Config) (d : Int) (v : ℚ) :
    mainLevel c d v
      = clamp (roundAway ((c.pwmResolution : ℚ) * (d.natAbs : ℚ) * c.vMin / ((c.dutyMax : ℚ) * v))) 0
          c.pwmResolution := by
  rw [mainLevel, pwmResolution_mul_dutyShare]

/-- A value within the bounds is its own clamp. -/
theorem clamp_of_mem {x lo hi : Int} (low : lo ≤ x) (high : x ≤ hi) : clamp x lo hi = x := by
  rw [clamp, max_eq_left low, min_eq_left high]

/-- The clamp keeps the order. -/
theorem clamp_mono {x y : Int} (lo hi : Int) (le : x ≤ y) : clamp x lo hi ≤ clamp y lo hi :=
  min_le_min_right hi (max_le_max_right lo le)

/-- A number between two integers rounds between them. -/
theorem roundAway_mem {x : ℚ} {lo hi : Int} (low : (lo : ℚ) ≤ x) (high : x ≤ hi) :
    lo ≤ roundAway x ∧ roundAway x ≤ hi :=
  ⟨(roundAway_int lo).symm.trans_le (roundAway_mono low), (roundAway_mono high).trans_eq (roundAway_int hi)⟩

theorem pwmResolution_nonneg (legal : c.legal = true) : (0 : ℚ) ≤ c.pwmResolution := by
  obtain ⟨-, -, -, resolution, -⟩ := c.legal_iff.mp legal
  exact_mod_cast (by omega : 0 ≤ c.pwmResolution)

/-- The fraction of an in-range duty at a floored voltage lies within the period. -/
theorem pwmResolution_mul_dutyShare_mem (legal : c.legal = true) (floored : c.vMin ≤ v)
    (inRange : (d.natAbs : Int) ≤ c.dutyMax) :
    0 ≤ (c.pwmResolution : ℚ) * dutyShare c d v ∧ (c.pwmResolution : ℚ) * dutyShare c d v ≤ c.pwmResolution :=
  ⟨mul_nonneg (pwmResolution_nonneg legal) (dutyShare_nonneg c d v legal floored),
    mul_le_of_le_one_right (pwmResolution_nonneg legal) (dutyShare_le_one c d v legal floored inRange)⟩

/-- On an in-range duty at a floored voltage the clamp does nothing (42_main_channel R131). -/
theorem mainLevel_of_inRange (legal : c.legal = true) (floored : c.vMin ≤ v)
    (inRange : (d.natAbs : Int) ≤ c.dutyMax) :
    mainLevel c d v = roundAway ((c.pwmResolution : ℚ) * dutyShare c d v) := by
  obtain ⟨low, high⟩ := pwmResolution_mul_dutyShare_mem legal floored inRange
  obtain ⟨low', high'⟩ := roundAway_mem (lo := 0) (by exact_mod_cast low) high
  exact clamp_of_mem low' high'

/-- The share of a duty does not increase with the voltage. -/
theorem dutyShare_antitone (legal : c.legal = true) (floored : c.vMin ≤ v) (le : v ≤ w) :
    dutyShare c d w ≤ dutyShare c d v := by
  obtain ⟨dutyMax, -, -, -, vMin, -⟩ := c.legal_iff.mp legal
  have dutyMax_pos : (0 : ℚ) < c.dutyMax := by exact_mod_cast dutyMax
  have v_pos : 0 < v := vMin.trans_le floored
  unfold dutyShare
  gcongr

/-- The main level does not increase with the voltage (42_main_channel R135). -/
theorem mainLevel_antitone (legal : c.legal = true) (floored : c.vMin ≤ v) (le : v ≤ w) :
    mainLevel c d w ≤ mainLevel c d v :=
  clamp_mono _ _ <| roundAway_mono <|
    mul_le_mul_of_nonneg_left (dutyShare_antitone legal floored le) (pwmResolution_nonneg legal)

/-- At the floor nothing is compensated: the share is the duty's part of `DUTY_MAX`. -/
theorem dutyShare_vMin (legal : c.legal = true) : dutyShare c d c.vMin = (d.natAbs : ℚ) / (c.dutyMax : ℚ) := by
  obtain ⟨-, -, -, -, vMin, -⟩ := c.legal_iff.mp legal
  exact mul_div_mul_right _ _ vMin.ne'

/-- The level at the floor is the uncompensated one (42_main_channel R135). -/
theorem mainLevel_vMin (legal : c.legal = true) (inRange : (d.natAbs : Int) ≤ c.dutyMax) :
    mainLevel c d c.vMin = roundAway ((c.pwmResolution : ℚ) * (d.natAbs : ℚ) / (c.dutyMax : ℚ)) := by
  rw [mainLevel_of_inRange legal le_rfl inRange, dutyShare_vMin legal, mul_div_assoc]

end MainLevel

/-- Settles O24: the fraction is `PWM_RESOLUTION` times a share, and an in-range duty's share is at most 1. -/
theorem mainLevelIsTheRoundedFraction : Obligations.MainLevelIsTheRoundedFraction := by
  rintro c d v pre legal floored rfl
  refine ⟨mainLevel_eq c d v, fun inRange => ?_⟩
  rw [← pwmResolution_mul_dutyShare]
  obtain ⟨low, high⟩ := pwmResolution_mul_dutyShare_mem legal floored inRange
  exact ⟨low, high, mainLevel_of_inRange legal floored inRange⟩

/-- Settles O25: the level is antitone in the voltage, and the uncompensated level is the one at `V_MIN`. -/
theorem mainLevelIsBoundedAndAntitone : Obligations.MainLevelIsBoundedAndAntitone := by
  intro c d v legal inRange floored
  rw [← mainLevel_vMin legal inRange]
  exact ⟨(mainLevel_bounds c d v legal).1, mainLevel_antitone legal le_rfl floored,
    (mainLevel_bounds c d c.vMin legal).2, fun w => mainLevel_antitone legal floored⟩

section MainDrive
variable {s : State} {m : Nat} {d : Int} {c : MainChan}

/-- MAIN_DRIVE's fast path: the range check alone (42_main_channel R130 step 1, R134). -/
theorem exec_mainDrive_fast (hc : s.mains[m]? = some c) (fast : slewLimit d c.prev s.cfg.dutyDiffMax = c.prev) :
    exec (.mainDrive m d) s = .next (s.checkRange d) := by
  simp only [exec_mainDrive_of_some hc, drivenMain, if_pos fast, State.write_main, set_of_getElem? hc,
    List.append_nil, State.checkRange]

/-- MAIN_DRIVE off the fast path: the range check, the three registers, and the level's event before the
direction's (42_main_channel R130 steps 2 to 4). -/
theorem exec_mainDrive_move {d1 : Int} (hc : s.mains[m]? = some c)
    (limited : d1 = slewLimit d c.prev s.cfg.dutyDiffMax) (moves : d1 ≠ c.prev) :
    exec (.mainDrive m d) s = .next { s.checkRange d with
      mains := s.mains.set m ⟨d1, mainLevel s.cfg d1 s.vNow, dirOf d1⟩
      events := s.events ++ [.pinWrite (.main m) (mainLevel s.cfg d1 s.vNow), .dirWrite m (dirOf d1)] } := by
  subst limited
  simp only [exec_mainDrive_of_some hc, drivenMain, if_neg moves, State.write_main, State.checkRange]

end MainDrive

/-- Settles O21, by the two paths of the operation. -/
theorem mainDriveAppliesTheLimitedDuty : Obligations.MainDriveAppliesTheLimitedDuty := by
  intro s m d d1 lvl c hc limited level
  obtain rfl : lvl = mainLevel s.cfg d1 s.vNow := level.trans (mainLevel_eq s.cfg d1 s.vNow).symm
  split
  · exact exec_mainDrive_fast hc (limited.symm.trans ‹d1 = c.prev›)
  · exact exec_mainDrive_move hc limited ‹d1 ≠ c.prev›

/-- Settles O22: the fast path's test reads no voltage, and the range check writes the flag alone. -/
theorem fastPathIgnoresTheVoltage : Obligations.FastPathIgnoresTheVoltage := fun s _ _ v _ hc fast =>
  ⟨_, exec_mainDrive_fast (s := { s with vNow := v }) hc fast, rfl⟩

section Absent
variable {s : State} {k : Nat} {i : Instr}

/-- A rule that has nothing to write, since its channel is absent, stops with the model's fault (log 12). -/
theorem Rule.run_of_content_eq_none {r : Rule} (absent : r.content s = none) : r.run s = .fault .noSuchChannel := by
  rw [r.run_eq, absent]

/-- A rule on a sub channel that the machine does not have writes nothing. -/
theorem Rule.content_of_absent_sub {r : Rule} (on : r.slot = .sub k) (absent : s.subs.length ≤ k) :
    r.content s = none := by
  cases r with
  | main => cases on
  | motor | solenoid =>
    cases on
    rw [Rule.content, List.getElem?_eq_none absent, Option.map_none]

/-- MAIN_DRIVE on an absent channel (log 12). -/
theorem exec_mainDrive_of_absent (d : Int) (absent : s.mains.length ≤ k) :
    exec (.mainDrive k d) s = .fault .noSuchChannel :=
  Rule.run_of_content_eq_none (r := .main k d) <| by
    rw [Rule.content, List.getElem?_eq_none absent, Option.map_none]

/-- Every operation on a sub channel runs a rule of that channel, so each stops on an absent one (log 12). -/
theorem exec_of_absent_sub (on : onSubChannel k i) (absent : s.subs.length ≤ k) :
    exec i s = .fault .noSuchChannel := by
  obtain ⟨r, slot, -, run⟩ := exists_rule (c := .sub k) s.cfg on
  rw [run s rfl, Rule.run_of_content_eq_none (Rule.content_of_absent_sub slot absent)]

end Absent

/-- Settles O34: the five operations on a sub channel are cases of one lemma. -/
theorem absentChannelsFault : Obligations.AbsentChannelsFault := by
  intro s k d on
  refine ⟨exec_mainDrive_of_absent d, fun absent => ⟨?_, ?_, ?_, ?_, ?_⟩⟩ <;>
    exact exec_of_absent_sub (by simp [onSubChannel]) absent

end Sys2Proof.Machine

/-! # 43_sub_channel: SUB_MOTOR, the sub level, and the two sub-modes

The sub level rounds what the main level leaves of the period, so its laws rest on one fact about rounding: an
integer less `x` rounds to the integer less the rounded `x`, but for one more at a tie. A solenoid request and a
SUB_MOTOR keep each other's registers by what their effects can write. -/

namespace Sys2Proof.Machine

section SubLevel
variable {c : Config} {d : Int} {v x : ℚ}

/-- Rounding half down and rounding half up differ at a tie alone. -/
theorem floor_half_add_floor_half_sub (x : ℚ) :
    ⌊x + 1 / 2⌋ + ⌊1 / 2 - x⌋ = if Int.fract x = 1 / 2 then 1 else 0 := by
  have parts := Int.floor_add_fract x
  have nonneg := Int.fract_nonneg x
  have lt_one := Int.fract_lt_one x
  rcases lt_trichotomy (Int.fract x) (1 / 2) with below | tie | above
  · have up : ⌊x + 1 / 2⌋ = ⌊x⌋ := Int.floor_eq_iff.mpr ⟨by linarith, by linarith⟩
    have down : ⌊1 / 2 - x⌋ = -⌊x⌋ := Int.floor_eq_iff.mpr (by push_cast; constructor <;> linarith)
    rw [up, down, if_neg below.ne, add_neg_cancel]
  · have up : ⌊x + 1 / 2⌋ = ⌊x⌋ + 1 := Int.floor_eq_iff.mpr (by push_cast; constructor <;> linarith)
    have down : ⌊1 / 2 - x⌋ = -⌊x⌋ := Int.floor_eq_iff.mpr (by push_cast; constructor <;> linarith)
    rw [up, down, if_pos tie]
    omega
  · have up : ⌊x + 1 / 2⌋ = ⌊x⌋ + 1 := Int.floor_eq_iff.mpr (by push_cast; constructor <;> linarith)
    have down : ⌊1 / 2 - x⌋ = -(⌊x⌋ + 1) := Int.floor_eq_iff.mpr (by push_cast; constructor <;> linarith)
    rw [up, down, if_neg above.ne', add_neg_cancel]

/-- The two parts of an integer round to parts of it, but that both round up at a tie. -/
theorem roundAway_int_sub {n : Int} (nonneg : 0 ≤ x) (le : x ≤ n) :
    roundAway ((n : ℚ) - x) = n - roundAway x + (if Int.fract x = 1 / 2 then 1 else 0) := by
  have shifted : ⌊(n : ℚ) - x + 1 / 2⌋ = n + ⌊1 / 2 - x⌋ := by
    rw [← Int.floor_intCast_add]
    ring_nf
  rw [roundAway_of_nonneg (sub_nonneg.mpr le), roundAway_of_nonneg nonneg, shifted,
    ← floor_half_add_floor_half_sub]
  omega

/-- `SubLevel` as R150 writes it. -/
theorem subLevel_eq (c : Config) (d : Int) (v : ℚ) :
    subLevel c d v
      = min (max (roundAway ((c.pwmResolution : ℚ)
          * (1 - (d.natAbs : ℚ) * c.vMin / ((c.dutyMax : ℚ) * v)))) 0) c.pwmResolution := rfl

/-- Duty 0 asks for no share of the period, so its level is the rest level (43_sub_channel R150). -/
theorem subLevel_zero (legal : c.legal = true) (v : ℚ) : subLevel c 0 v = c.pwmResolution := by
  have share : dutyShare c 0 v = 0 := by simp [dutyShare]
  have resolution : 0 ≤ c.pwmResolution := by exact_mod_cast pwmResolution_nonneg legal
  rw [subLevel, share, sub_zero, mul_one, roundAway_int, clamp_of_mem resolution le_rfl]

/-- On an in-range duty at a floored voltage the clamp does nothing (43_sub_channel R150). -/
theorem subLevel_of_inRange (legal : c.legal = true) (floored : c.vMin ≤ v)
    (inRange : (d.natAbs : Int) ≤ c.dutyMax) :
    subLevel c d v = roundAway ((c.pwmResolution : ℚ) * (1 - dutyShare c d v)) := by
  obtain ⟨low, high⟩ := pwmResolution_mul_dutyShare_mem legal floored inRange
  obtain ⟨low', high'⟩ := roundAway_mem (x := (c.pwmResolution : ℚ) * (1 - dutyShare c d v)) (lo := 0)
    (hi := c.pwmResolution) (by push_cast; linarith) (by linarith)
  exact clamp_of_mem low' high'

/-- The sub level is what the main level leaves of the period, but for one more at a tie
(43_sub_channel R150). -/
theorem subLevel_eq_complement (legal : c.legal = true) (floored : c.vMin ≤ v)
    (inRange : (d.natAbs : Int) ≤ c.dutyMax) :
    subLevel c d v = c.pwmResolution - mainLevel c d v
      + (if Int.fract ((c.pwmResolution : ℚ) * dutyShare c d v) = 1 / 2 then 1 else 0) := by
  obtain ⟨low, high⟩ := pwmResolution_mul_dutyShare_mem legal floored inRange
  rw [subLevel_of_inRange legal floored inRange, mainLevel_of_inRange legal floored inRange,
    mul_one_sub, roundAway_int_sub low high]

end SubLevel

/-- Settles O28: the two levels round the two parts of one period. -/
theorem subLevelComplementsMainLevel : Obligations.SubLevelComplementsMainLevel := by
  intro c d v legal floored
  refine ⟨subLevel_zero legal v, fun inRange => ⟨subLevel_of_inRange legal floored inRange, ?_⟩⟩
  rw [← pwmResolution_mul_dutyShare]
  exact subLevel_eq_complement legal floored inRange

section SubMotor
variable {s : State} {k : Nat} {d : Int} {c : SubChan}

/-- SUB_MOTOR's fast path: the range check alone (43_sub_channel R151 step 1). -/
theorem exec_subMotor_fast (hc : s.subs[k]? = some c) (fast : slewLimit d c.prev s.cfg.dutyDiffMax = c.prev) :
    exec (.subMotor k d) s = .next (s.checkRange d) := by
  simp only [exec_subMotor_of_some hc, drivenSub, if_pos fast, State.write_motor, set_of_getElem? hc,
    List.append_nil, State.checkRange]

/-- SUB_MOTOR off the fast path: the range check, and the channel and the events of the rule
(43_sub_channel R151 steps 2 to 5). -/
theorem exec_subMotor_move {d1 : Int} (hc : s.subs[k]? = some c)
    (limited : d1 = slewLimit d c.prev s.cfg.dutyDiffMax) (moves : d1 ≠ c.prev) :
    exec (.subMotor k d) s = .next { s.checkRange d with
      subs := s.subs.set k (movedSub s.cfg s.vNow c d1)
      events := s.events ++ movedSubEvents s.cfg s.vNow k c d1 } := by
  subst limited
  simp only [exec_subMotor_of_some hc, drivenSub, if_neg moves, State.write_motor, State.checkRange]

/-- The reversal test compares three-valued signs (43_sub_channel R152). -/
theorem ite_reverses {α : Sort*} (prev d : Int) (a b : α) :
    (if reverses prev d then a else b) = if d.sign = prev.sign then b else a := by
  by_cases same : d.sign = prev.sign <;> simp [reverses, same]

/-- The active pin after the hand-over, by the three-valued signs (43_sub_channel R151 step 3, R152). -/
theorem activeAfter_eq_ite (c : SubChan) (d1 : Int) :
    activeAfter c d1 = if d1.sign = c.prev.sign then c.active else sideOf d1 :=
  ite_reverses _ _ _ _

/-- The events of a moving SUB_MOTOR: the hand-over's on a sign change, then the level's (43_sub_channel R151). -/
theorem movedSubEvents_eq (cfg : Config) (v : Volts) (k : Nat) (c : SubChan) (d1 : Int) :
    movedSubEvents cfg v k c d1 =
      (if d1.sign = c.prev.sign then [] else [.pinWrite (.sub k c.active) (restLevel cfg)])
        ++ [.pinWrite (.sub k (activeAfter c d1)) (subLevel cfg d1 v)] :=
  congrArg (· ++ _) (ite_reverses _ _ _ _)

end SubMotor

/-- Settles O27, by the two paths of the operation; off the fast path the channel is that of `movedSub_eq`. -/
theorem subMotorAppliesTheLimitedDuty : Obligations.SubMotorAppliesTheLimitedDuty := by
  intro s k d d1 lvl x c base hc limited level handedOver side
  obtain rfl : lvl = subLevel s.cfg d1 s.vNow := level.trans (subLevel_eq ..).symm
  obtain rfl : x = activeAfter c d1 := side.trans (activeAfter_eq_ite c d1).symm
  have atRest : base = if d1.sign = c.prev.sign then c else c.withLevel c.active (restLevel s.cfg) :=
    handedOver.trans (congrArg (ite _ c) (c.withLevel_eq c.active (restLevel s.cfg)).symm)
  have driven : movedSub s.cfg s.vNow c d1 = match activeAfter c d1 with
      | .a => { base with levelA := subLevel s.cfg d1 s.vNow, active := .a, prev := d1 }
      | .b => { base with levelB := subLevel s.cfg d1 s.vNow, active := .b, prev := d1 } := by
    rw [movedSub_eq, ite_reverses, ← atRest]
    cases activeAfter c d1 <;> rfl
  split
  · exact exec_subMotor_fast hc (limited.symm.trans ‹d1 = c.prev›)
  · have run := exec_subMotor_move hc limited ‹d1 ≠ c.prev›
    rw [driven, movedSubEvents_eq, ← List.append_assoc] at run
    exact run

section SubModes
variable {s : State} {k : Nat}

/-- SOLENOID_SWITCH completes on every channel of the machine, raises no flag and leaves every motor register
(43_sub_channel R153, R158). -/
theorem solenoidSwitch_keeps (on : Bool) (present : k < s.subs.length) :
    ∃ t, exec (.solenoidSwitch k on) s = .next t ∧ t.fRange = s.fRange
      ∧ t.subs.map (·.prev) = s.subs.map (·.prev) ∧ t.subs.map (·.active) = s.subs.map (·.active)
      ∧ t.mains = s.mains := by
  obtain ⟨t, run⟩ := solenoidSwitch_completes k on s present
  have effect : Effect (.solenoidSwitch k on) s t := exec_effect _ s t nofun run
  obtain ⟨prev, active⟩ := effect.motorRegisters_writer.resolve_left (by simp)
  exact ⟨t, run, effect.fRange_eq.trans (Bool.or_false _), prev, active, effect.mains_writer.resolve_left (by simp)⟩

/-- SUB_MOTOR completes on every channel of the machine and leaves every solenoid register
(43_sub_channel R151, R158). -/
theorem subMotor_keeps (d : Int) (present : k < s.subs.length) :
    ∃ t, exec (.subMotor k d) s = .next t ∧ t.subs.map (·.sol) = s.subs.map (·.sol)
      ∧ t.subs.map (·.t0) = s.subs.map (·.t0) := by
  obtain ⟨t, run⟩ := execSubMotor_completes k d s present
  have effect : Effect (.subMotor k d) s t := exec_effect _ s t nofun run
  exact ⟨t, run, effect.solenoidRegisters_writer.resolve_left (by simp)⟩

/-- SUB_SOL_ON is SOLENOID_SWITCH with target on (43_sub_channel R154). -/
theorem exec_subSolOn (k : Nat) (s : State) : exec (.subSolOn k) s = exec (.solenoidSwitch k true) s := rfl

/-- SUB_SOL_OFF is SOLENOID_SWITCH with target off (43_sub_channel R155). -/
theorem exec_subSolOff (k : Nat) (s : State) : exec (.subSolOff k) s = exec (.solenoidSwitch k false) s := rfl

/-- SUB_DISPATCH is the operation that its duty selects as a word (43_sub_channel R156, 30_encoding R84). -/
theorem exec_subDispatch (k : Nat) (d : Int) (s : State) :
    exec (.subDispatch k d) s = exec (selectSub s.cfg k d) s := by
  unfold selectSub
  split
  · exact if_pos ‹_›
  · rename_i notOn
    split
    · exact (if_neg notOn).trans (if_pos ‹_›)
    · exact (if_neg notOn).trans (if_neg ‹_›)

/-- SUB_DISPATCH completes on every channel of the machine: each operation that it can run does. -/
theorem exec_subDispatch_completes (d : Int) (present : k < s.subs.length) :
    ∃ t, exec (.subDispatch k d) s = .next t := by
  rw [exec_subDispatch]
  unfold selectSub
  split
  · exact solenoidSwitch_completes k true s present
  · split
    · exact solenoidSwitch_completes k false s present
    · exact execSubMotor_completes k d s present

end SubModes

/-- Settles O32, from what each sub-mode keeps. -/
theorem subModesKeepEachOthersRegisters : Obligations.SubModesKeepEachOthersRegisters := by
  intro s k d on present
  obtain ⟨t, run, -, prev, active, -⟩ := solenoidSwitch_keeps on present
  exact ⟨subMotor_keeps d present, t, run, prev, active⟩

/-- Settles O30, from what SOLENOID_SWITCH keeps for either target. -/
theorem solenoidRequestsSwitchToTheirTarget : Obligations.SolenoidRequestsSwitchToTheirTarget := by
  intro s k present
  obtain ⟨t, run, keeps⟩ := solenoidSwitch_keeps true present
  obtain ⟨u, run', keeps'⟩ := solenoidSwitch_keeps false present
  exact ⟨⟨t, (exec_subSolOn k s).trans run, run, keeps⟩, ⟨u, (exec_subSolOff k s).trans run', run', keeps'⟩⟩

/-- Settles O31: the statement's chain of tests is `selectSub`. -/
theorem subDispatchRunsTheSelectedOperation : Obligations.SubDispatchRunsTheSelectedOperation := by
  intro s k d present
  obtain ⟨t, run⟩ := exec_subDispatch_completes d present
  exact ⟨t, run, (exec_subDispatch k d s).symm.trans run⟩

end Sys2Proof.Machine

/-! # 44_decoder_and_cycle: the fetch, the startup, and the control cycle as steps

No operation reads or writes the sequencer's stage (`exec_atStage`), so a step at a stage is the stage's operation
on the state as CONTROL_CYCLE sees it, with the stage moved on (`repeatStep_of_stage`). The channel stages of both
are one list of slots (`channelStages_eq`, `repeatStep_slots`). That the block never stops, and hence that a cycle
completes, is that every well-formed operation completes (`exec_completes`) and the sequencer issues no other. -/

namespace Sys2Proof.Machine

section Primitives

/-- CONFIGURE by the setting of `GATE_EN` (44_decoder_and_cycle R186). -/
theorem exec_configure (s : State) : exec .configure s = if s.cfg.gateEn = true then
    .next (s.configureOutputs.setPhase .gate) else .next (s.configureOutputs.setPhase .loop).assertPower := rfl

/-- One poll by the answer drawn (44_decoder_and_cycle R187). -/
theorem exec_startupGate (s : State) : exec .startupGate s = if gatePasses s.cfg s.drawRawGate.1 = true then
    .next (s.drawRawGate.2.assertPower.setPhase .loop) else .next s.drawRawGate.2 := rfl

/-- With no frame handed over the fetch only takes its turn in the script (44_decoder_and_cycle R181; log 4). -/
theorem execFetchFrame_of_nil {s : State} (nothing : s.handedOver = []) :
    execFetchFrame s = .next (s.withEnv s.envAfterFetch) := by
  rw [execFetchFrame_eq, nothing, if_pos nofun]
  rfl

end Primitives

/-- Settles O41, by the definition of SLEEP. -/
theorem sleepChangesNothing : Obligations.SleepChangesNothing := fun _ => rfl

/-- Settles O37, by the setting of `GATE_EN`. -/
theorem configureWritesEveryOutput : Obligations.ConfigureWritesEveryOutput := by
  intro s _ _
  rw [exec_configure]
  cases gate : s.cfg.gateEn
  · simp [State.configureOutputs, State.setPhase, State.assertPower, State.emit, configureEvents, restLevel]
  · simp [State.configureOutputs, State.setPhase, configureEvents, restLevel]

/-- Settles O38: the statement's comparison is `gatePasses`. -/
theorem startupGatePollsStrictly : Obligations.StartupGatePollsStrictly := by
  rintro s g drawn rfl rfl
  rw [exec_startupGate, gatePasses]
  simp only [decide_eq_true_eq, apply_ite Host.Outcome.next]
  rfl

/-- Settles O11: with nothing handed over the slot was empty before; else the buffer is the newest frame's bytes. -/
theorem fetchTakesTheNewestFrame : Obligations.FetchTakesTheNewestFrame := by
  intro s complete
  cases newest : s.newestFrame with
  | none =>
    have nothing : s.handedOver = [] := List.getLast?_eq_none_iff.mp newest
    have empty : s.pending = none := by
      rw [State.handedOver, List.append_eq_nil_iff] at nothing
      exact Option.toList_eq_nil_iff.mp nothing.1
    exact ⟨_, execFetchFrame_of_nil nothing, by rw [← empty]; rfl, fun _ => rfl, nofun⟩
  | some f =>
    have fits : f.length = s.frameSize := complete f (List.mem_of_getLast? newest)
    refine ⟨_, execFetchFrame_newest complete newest, rfl, nofun, ?_⟩
    rintro _ ⟨⟩
    exact ⟨memOfBytes_wfFrom _ 0 f (by omega), fun a => by simpa using memGet_memOfBytes 0 f a⟩

section Stages

variable {i : Instr} {s t : State} {st : Stage}

/-- The state with the sequencer at another stage (log 8). -/
def State.atStage (s : State) (st : Stage) : State := { s with stage := st }

@[simp] theorem State.atStage_cfg (s : State) (st : Stage) : (s.atStage st).cfg = s.cfg := rfl
@[simp] theorem State.atStage_phase (s : State) (st : Stage) : (s.atStage st).phase = s.phase := rfl
@[simp] theorem State.atStage_stage (s : State) (st : Stage) : (s.atStage st).stage = st := rfl
@[simp] theorem State.atStage_cycleN (s : State) (st : Stage) : (s.atStage st).cycleN = s.cycleN := rfl

theorem State.atStage_of_eq (h : s.stage = st) : s.atStage st = s := by
  subst h
  rfl

/-- A channel rule's content is made of registers, none of them the stage. -/
theorem Rule.run_atStage (r : Rule) (s : State) (st : Stage) :
    r.run (s.atStage st) = andThen (r.run s) fun t => .next (t.atStage st) := by
  have content : r.content (s.atStage st) = r.content s := by cases r <;> rfl
  rw [Rule.run_eq, Rule.run_eq, content]
  cases r.content s <;> rfl

theorem exec_atStage_of_onSlot {c : Slot} (on : onSlot i c) (s : State) (st : Stage) :
    exec i (s.atStage st) = andThen (exec i s) fun t => .next (t.atStage st) := by
  obtain ⟨r, -, -, run⟩ := exists_rule s.cfg on
  rw [run s rfl, run (s.atStage st) rfl, Rule.run_atStage]

/-- No operation reads or writes the sequencer's stage (log 8). -/
theorem exec_atStage (single : i ≠ .controlCycle) (s : State) (st : Stage) :
    exec i (s.atStage st) = andThen (exec i s) fun t => .next (t.atStage st) := by
  cases i with
  | mainDrive m d => exact exec_atStage_of_onSlot (c := .main m) ⟨d, rfl⟩ s st
  | subSolOn k => exact exec_atStage_of_onSlot (c := .sub k) (.inl rfl) s st
  | subSolOff k => exact exec_atStage_of_onSlot (c := .sub k) (.inr (.inl rfl)) s st
  | subMotor k d => exact exec_atStage_of_onSlot (c := .sub k) (.inr (.inr (.inl ⟨d, rfl⟩))) s st
  | solenoidSwitch k on => exact exec_atStage_of_onSlot (c := .sub k) (.inr (.inr (.inr (.inl ⟨on, rfl⟩)))) s st
  | subDispatch k d => exact exec_atStage_of_onSlot (c := .sub k) (.inr (.inr (.inr (.inr ⟨d, rfl⟩)))) s st
  | configure =>
    rw [exec_configure, exec_configure, State.atStage_cfg]
    split <;> rfl
  | startupGate =>
    have answer : (s.atStage st).drawRawGate.1 = s.drawRawGate.1 := rfl
    rw [exec_startupGate, exec_startupGate, answer, State.atStage_cfg]
    split <;> rfl
  | fetchFrame =>
    simp only [exec, execFetchFrame_eq, show (s.atStage st).handedOver = s.handedOver from rfl,
      show (s.atStage st).frameSize = s.frameSize from rfl]
    split
    · cases s.handedOver.getLast? <;> rfl
    · rfl
  | decode => simp only [exec, execDecode_eq]; rfl
  | controlCycle => exact absurd rfl single
  | powerEnable | vsample | vsampleFilt | slewLimit | sleep => rfl

theorem advance_of_stage (loop : s.phase = .loop) (at_st : s.stage = st) (awake : st ≠ .sleep) (t : State) :
    advance s t = t.atStage (nextStage s.cfg s.cycleN st) := by
  rw [advance_loop s t loop, at_st]
  cases st with
  | sleep => exact absurd rfl awake
  | _ => rfl

/-- A step at a stage before SLEEP: the operation issued, and then the next stage (44_decoder_and_cycle R182). -/
theorem step_of_stage (legal : s.cfg.legal = true) (loop : s.phase = .loop) (at_st : s.stage = st)
    (awake : st ≠ .sleep) (issue : issued s = .ok i) :
    step s = andThen (exec i s) fun t => .next (t.atStage (nextStage s.cfg s.cycleN st)) := by
  simp only [step_eq s i legal issue, advance_of_stage loop at_st awake]

/-- The filter stage is in every `FILT_PERIOD_K`th cycle (44_decoder_and_cycle R183). -/
theorem nextStage_vsample (c : Config) (n : Nat) :
    nextStage c n .vsample = if n % c.filtPeriodK = 0 then .vsampleFilt else .fetch := by
  simp [nextStage, filterCycle]

theorem numWords_pos_of_legal {c : Config} (legal : c.legal = true) : 0 < c.numWords := by
  simp only [Config.legal, Bool.and_eq_true, decide_eq_true_eq] at legal
  omega

/-- A legal configuration has a first slot. -/
theorem nextStage_decode {c : Config} (legal : c.legal = true) (n : Nat) : nextStage c n .decode = .slot 0 :=
  if_pos (numWords_pos_of_legal legal)

/-- Only VSAMPLE's stage leads to the filter stage (44_decoder_and_cycle R183). -/
theorem nextStage_eq_vsampleFilt {c : Config} {n : Nat} (h : nextStage c n st = .vsampleFilt) :
    st = .vsample ∧ n % c.filtPeriodK = 0 := by
  cases st with
  | vsample =>
    rw [nextStage_vsample] at h
    exact ⟨rfl, by_contra fun off => by simp [off] at h⟩
  | decode | slot =>
    simp only [nextStage, slotOrSleep] at h
    split at h <;> cases h
  | vsampleFilt | fetch | sleep => cases h

theorem Issues.of_filter (h : Issues s .vsampleFilt) : s.stage = .vsampleFilt := by
  generalize issue : Instr.vsampleFilt = i at h
  cases h with
  | filter _ at_filter => exact at_filter
  | slot n c d =>
    obtain ⟨m, -, h⟩ | ⟨k, -, h | h | ⟨h, -⟩⟩ := select_cases s.cfg c d <;> simp [h] at issue
  | _ => cases issue

end Stages

/-- Settles O45, stage by stage from what the sequencer issues and how it moves on. -/
theorem stepIssuesTheFixedSequence : Obligations.StepIssuesTheFixedSequence := by
  intro s legal
  refine ⟨fun start => ?_, fun gate => ?_, fun loop at_st => ?_, fun loop at_st => ?_, fun loop at_st => ?_,
    fun loop at_st => ?_, fun loop at_st => ?_⟩
  · have issue : issued s = .ok .configure := by rw [issued, start]
    simp only [step_eq s _ legal issue, advance_start s _ (by simp [start] : s.phase ≠ .loop), andThen_pure]
  · have issue : issued s = .ok .startupGate := by rw [issued, gate]
    simp only [step_eq s _ legal issue, advance_start s _ (by simp [gate] : s.phase ≠ .loop), andThen_pure]
  · rw [step_of_stage legal loop at_st nofun (by rw [issued_loop s loop, at_st]), nextStage_vsample]
    rfl
  · exact step_of_stage legal loop at_st nofun (by rw [issued_loop s loop, at_st])
  · exact step_of_stage legal loop at_st nofun (by rw [issued_loop s loop, at_st])
  · rw [step_of_stage legal loop at_st nofun (by rw [issued_loop s loop, at_st]), nextStage_decode legal]
    rfl
  · rw [step_eq s .sleep legal (by rw [issued_loop s loop, at_st])]
    simp only [advance_loop s _ loop, at_st]
    rfl

section Cycle
/-! The cycle's stages, first as CONTROL_CYCLE runs them and then as steps. -/

/-- What every operation of the cycle keeps: the configuration and the sequencer's own registers; and a sample
once taken stays taken (44_decoder_and_cycle R182). -/
structure SameCycle (s t : State) : Prop where
  cfg : t.cfg = s.cfg
  phase : t.phase = s.phase
  stage : t.stage = s.stage
  cycleN : t.cycleN = s.cycleN
  sampled : s.vNowWritten = true → t.vNowWritten = true

variable {i : Instr} {s s₀ t u : State} {st : Stage}

theorem SameCycle.refl (s : State) : SameCycle s s := ⟨rfl, rfl, rfl, rfl, id⟩

theorem SameCycle.trans (h₁ : SameCycle s t) (h₂ : SameCycle t u) : SameCycle s u :=
  ⟨h₂.cfg.trans h₁.cfg, h₂.phase.trans h₁.phase, h₂.stage.trans h₁.stage, h₂.cycleN.trans h₁.cycleN,
    h₂.sampled ∘ h₁.sampled⟩

theorem Effect.sameCycle (h : Effect i s t) (notConfigure : i ≠ .configure) (notGate : i ≠ .startupGate) :
    SameCycle s t :=
  ⟨h.cfg_eq, h.phase_writer.resolve_left (by simp [*]), h.stage_eq, h.cycleN_eq, h.vNowWritten_mono⟩

/-- Two sequences agree if their second parts agree on every state that the first part leaves. -/
theorem andThen_congr {o : Host.Outcome State Fault Refusal} {f g : State → Host.Outcome State Fault Refusal}
    (h : ∀ t, o = .next t → f t = g t) : andThen o f = andThen o g := by
  cases o with
  | next t => exact h t rfl
  | fault | refused => rfl

/-- The channel operation of slot `n`, as the sequencer issues it (44_decoder_and_cycle R182). -/
def serveSlot (n : Nat) (s : State) : Host.Outcome State Fault Refusal :=
  match slotOperation s n with
  | .ok i => exec i s
  | .error f => .fault f

/-- The channel operations of a list of slots, in order (44_decoder_and_cycle R184). -/
def serveSlots : List Nat → State → Host.Outcome State Fault Refusal
  | [], s => .next s
  | n :: ns, s => andThen (serveSlot n s) (serveSlots ns)

theorem serveSlot_of_ok {n : Nat} (h : slotOperation s n = .ok i) : serveSlot n s = exec i s := by
  simp only [serveSlot, h]

theorem serveSlot_of_error {n : Nat} {f : Fault} (h : slotOperation s n = .error f) : serveSlot n s = .fault f := by
  simp only [serveSlot, h]

theorem serveSlots_append (ms ns : List Nat) (s : State) :
    serveSlots (ms ++ ns) s = andThen (serveSlots ms s) (serveSlots ns) := by
  induction ms generalizing s with
  | nil => rfl
  | cons m ms ih =>
    rw [List.cons_append, serveSlots, serveSlots, andThen_assoc]
    exact congrArg _ (funext ih)

theorem serveSlot_eq {n : Nat} {c : Slot} (at_c : slotAt s.cfg n = some c) :
    serveSlot n s = match s.duty[n]? with
      | some d => exec (select s.cfg c d) s
      | none => .fault .noSuchSlot := by
  unfold serveSlot slotOperation
  rw [at_c]
  cases s.duty[n]? <;> rfl

/-- A slot's operation is on the slot's channel (30_encoding R83, R84). -/
theorem onSlot_select (cfg : Config) (c : Slot) (d : Int) : onSlot (select cfg c d) c := by
  obtain ⟨m, rfl, h⟩ | ⟨k, rfl, h | h | ⟨h, -⟩⟩ := select_cases cfg c d <;>
    simp [h, onSlot, onMainChannel, onSubChannel]

theorem onSlot.ne {c : Slot} (h : onSlot i c) :
    i ≠ .configure ∧ i ≠ .startupGate ∧ i ≠ .fetchFrame ∧ i ≠ .decode ∧ i ≠ .controlCycle := by
  cases c with
  | main m => obtain ⟨d, rfl⟩ := h; simp
  | sub k => obtain rfl | rfl | ⟨d, rfl⟩ | ⟨on, rfl⟩ | ⟨d, rfl⟩ := h <;> simp

theorem onSlot_of_slotOperation {n : Nat} (h : slotOperation s n = .ok i) : ∃ c, onSlot i c := by
  unfold slotOperation at h
  split at h
  · rename_i c d _ _
    cases h
    exact ⟨c, onSlot_select s.cfg c d⟩
  · cases h

/-- A slot's operation keeps the frame and its duties. -/
theorem serveSlot_next {n : Nat} (h : serveSlot n s = .next t) :
    SameCycle s t ∧ t.frame = s.frame ∧ t.duty = s.duty := by
  unfold serveSlot at h
  split at h
  · rename_i i issue
    obtain ⟨c, on⟩ := onSlot_of_slotOperation issue
    obtain ⟨notConfigure, notGate, notFetch, notDecode, single⟩ := on.ne
    have effect := exec_effect i s t single h
    exact ⟨effect.sameCycle notConfigure notGate, (effect.frame_writer.resolve_left notFetch).1,
      effect.duty_writer.resolve_left notDecode⟩
  · cases h

theorem serveSlots_next {ns : List Nat} (h : serveSlots ns s = .next t) :
    SameCycle s t ∧ t.frame = s.frame ∧ t.duty = s.duty := by
  induction ns generalizing s with
  | nil => cases h; exact ⟨.refl _, rfl, rfl⟩
  | cons n ns ih =>
    obtain ⟨u, first, rest⟩ := (andThen_eq_next _ _ _).mp h
    obtain ⟨same₁, frame₁, duty₁⟩ := serveSlot_next first
    obtain ⟨same₂, frame₂, duty₂⟩ := ih rest
    exact ⟨same₁.trans same₂, frame₂.trans frame₁, duty₂.trans duty₁⟩

/-- Stage 4 serves main slots (44_decoder_and_cycle R182). -/
theorem driveMains_eq {ms : List Nat} (present : ∀ m ∈ ms, m < s.cfg.numMain) : driveMains ms s = serveSlots ms s := by
  induction ms generalizing s with
  | nil => rfl
  | cons m ms ih =>
    obtain ⟨head, tail⟩ := List.forall_mem_cons.mp present
    rw [driveMains, serveSlots, serveSlot_eq (slotAt_main s.cfg m head)]
    cases s.duty[m]? with
    | none => rfl
    | some d => exact andThen_congr fun t run => ih (by rwa [configurationIsReadOnly (.mainDrive m d) _ t run])

/-- Stage 5 serves sub slots: SUB_DISPATCH is the operation that the slot's word selects
(44_decoder_and_cycle R182, 43_sub_channel R156). -/
theorem dispatchSubs_eq {ks : List Nat} (present : ∀ k ∈ ks, k < s.cfg.numSub) :
    dispatchSubs ks s = serveSlots (ks.map (s.cfg.numMain + ·)) s := by
  induction ks generalizing s with
  | nil => rfl
  | cons k ks ih =>
    obtain ⟨head, tail⟩ := List.forall_mem_cons.mp present
    rw [dispatchSubs, List.map_cons, serveSlots, serveSlot_eq (slotAt_sub s.cfg k head)]
    cases s.duty[s.cfg.numMain + k]? with
    | none => rfl
    | some d =>
      refine (congrArg (andThen · _) (exec_subDispatch k d s)).trans (andThen_congr fun t run => ?_)
      have cfg := configurationIsReadOnly _ s t run
      rw [ih (by rwa [cfg]), cfg]

/-- Stages 4 and 5 serve the `N` slots of the frame in order (44_decoder_and_cycle R182, R184). -/
theorem channelStages_eq (s : State) (f : State → Host.Outcome State Fault Refusal) :
    (andThen (driveMains (List.range s.cfg.numMain) s) fun t => andThen (dispatchSubs (List.range t.cfg.numSub) t) f)
      = andThen (serveSlots (List.range s.cfg.numWords) s) f := by
  rw [Config.numWords, List.range_add, serveSlots_append, andThen_assoc,
    driveMains_eq fun m => List.mem_range.mp]
  refine andThen_congr fun t run => ?_
  rw [dispatchSubs_eq fun k => List.mem_range.mp, (serveSlots_next run).1.cfg]

/-- Stages 2 to 6 of the cycle and the count; SLEEP does nothing (44_decoder_and_cycle R182, R185). -/
def serveFrame (s : State) : Host.Outcome State Fault Refusal :=
  andThen (exec .fetchFrame s) fun s =>
  andThen (exec .decode s) fun s =>
  andThen (serveSlots (List.range s.cfg.numWords) s) fun s => .next s.countCycle

/-- CONTROL_CYCLE: the samples, and then the frame (44_decoder_and_cycle R182). -/
theorem exec_controlCycle (s : State) :
    exec .controlCycle s = andThen (exec .vsample s) fun s => andThen (filterStage s) serveFrame := by
  have serve : serveFrame = fun s => andThen (exec .fetchFrame s) fun s => andThen (exec .decode s) fun s =>
      andThen (driveMains (List.range s.cfg.numMain) s) fun s =>
        andThen (dispatchSubs (List.range s.cfg.numSub) s) fun s => .next s.countCycle := by
    simp only [channelStages_eq]
    rfl
  rw [serve]
  rfl

/-- What a completed CONTROL_CYCLE leaves in the sequencer's registers, the duties and the sample. -/
theorem exec_controlCycle_next (h : exec .controlCycle s = .next t) (loop : s.phase = .loop) :
    t.cfg = s.cfg ∧ t.phase = .loop ∧ t.stage = s.stage ∧ t.cycleN = s.cycleN + 1
      ∧ t.frameDuties = some t.duty ∧ t.vNowWritten = true := by
  simp only [exec_controlCycle, serveFrame, andThen_eq_next] at h
  obtain ⟨s₁, sample, s₂, filter, s₃, fetch, s₄, decode, s₅, slots, count⟩ := h
  cases count
  have sampled := exec_effect .vsample _ _ nofun sample
  have filtered : SameCycle s₁ s₂ := by
    unfold filterStage at filter
    split at filter
    · exact (exec_effect .vsampleFilt _ _ nofun filter).sameCycle nofun nofun
    · cases filter; exact .refl s₁
  have fetched := (exec_effect .fetchFrame _ _ nofun fetch).sameCycle nofun nofun
  have decoded := exec_effect .decode _ _ nofun decode
  obtain ⟨served, frame, duty⟩ := serveSlots_next slots
  have after : SameCycle s₁ s₅ := filtered.trans <| fetched.trans <| (decoded.sameCycle nofun nofun).trans served
  obtain ⟨cfg, phase, stage, cycleN, -⟩ := (sampled.sameCycle nofun nofun).trans after
  refine ⟨cfg, phase.trans loop, stage, congrArg (· + 1) cycleN, ?_, after.sampled sampled.vNowWritten_of_vsample⟩
  rw [State.frameDuties_congr s₄ s₅.countCycle served.cfg frame, decoded.duty_of_decode, State.countCycle_duty, duty]

section AsSteps
/-! From the start `s₀` of a cycle: `s` is the state as CONTROL_CYCLE has it at a stage, and the steps see it with
the sequencer at that stage. -/

variable (legal : s₀.cfg.legal = true) (loop : s₀.phase = .loop) (same : SameCycle s₀ s)
include legal loop same

/-- If the steps from the next stage on do `k`, then those from this stage on do its operation and then `k`. -/
theorem repeatStep_of_stage {n : Nat} {k : State → Host.Outcome State Fault Refusal} (awake : st ≠ .sleep)
    (issue : issued (s.atStage st) = .ok i)
    (rest : ∀ t, SameCycle s₀ t → repeatStep n (t.atStage (nextStage s₀.cfg s₀.cycleN st)) = k t) :
    repeatStep (n + 1) (s.atStage st) = andThen (exec i s) k := by
  have loop' : (s.atStage st).phase = .loop := same.phase.trans loop
  have single := issued_ne_controlCycle _ i issue
  rw [repeatStep, step_of_stage (by rw [State.atStage_cfg, same.cfg, legal]) loop' rfl awake issue,
    exec_atStage single, andThen_assoc, andThen_assoc]
  refine andThen_congr fun t run => ?_
  obtain ⟨notConfigure, notGate, -⟩ := (issues_of_issued issue).of_loop loop'
  have same' := same.trans ((exec_effect i s t single run).sameCycle notConfigure notGate)
  rw [← rest t same', ← same.cfg, ← same.cycleN]
  rfl

/-- The last `k` slots and SLEEP as steps. -/
theorem repeatStep_slots (start : s₀.stage = .vsample) {first k : Nat} (last : first + k = s₀.cfg.numWords) :
    repeatStep (k + 1) (s.atStage (slotOrSleep s₀.cfg first))
      = andThen (serveSlots (List.range' first k) s) fun t => .next t.countCycle := by
  induction k generalizing first s with
  | zero =>
    have asleep : slotOrSleep s₀.cfg first = .sleep := if_neg (by omega)
    obtain ⟨-, -, -, -, -, -, sleep⟩ := stepIssuesTheFixedSequence (s.atStage .sleep) (same.cfg ▸ legal)
    rw [asleep, repeatStep, sleep (same.phase.trans loop) rfl]
    exact congrArg Host.Outcome.next (State.atStage_of_eq (s := s.countCycle) (same.stage.trans start))
  | succ k ih =>
    have slot : slotOrSleep s₀.cfg first = .slot first := if_pos (by omega)
    have issue : issued (s.atStage (.slot first)) = slotOperation s first := issued_loop _ (same.phase.trans loop)
    rw [slot, List.range'_succ, serveSlots, andThen_assoc]
    cases op : slotOperation s first with
    | ok i =>
      rw [serveSlot_of_ok op]
      exact repeatStep_of_stage legal loop same nofun (issue.trans op) fun t same' => ih same' (by omega)
    | error f =>
      rw [serveSlot_of_error op, repeatStep, step, if_pos (same.cfg ▸ legal), issue.trans op]
      rfl

/-- Stages 2 to 6 as steps. -/
theorem repeatStep_fetch (start : s₀.stage = .vsample) :
    repeatStep (s₀.cfg.numWords + 3) (s.atStage .fetch) = serveFrame s := by
  have issue {st : Stage} {t : State} (same : SameCycle s₀ t) := issued_loop (t.atStage st) (same.phase.trans loop)
  refine repeatStep_of_stage (st := .fetch) (i := .fetchFrame) legal loop same nofun (issue same) fun t same => ?_
  refine repeatStep_of_stage (st := .decode) (i := .decode) legal loop same nofun (issue same) fun t same => ?_
  rw [same.cfg, List.range_eq_range']
  exact repeatStep_slots legal loop same start (Nat.zero_add _)

/-- The filter stage, if the cycle has one, and the stages after it as steps. -/
theorem repeatStep_filter (start : s₀.stage = .vsample) :
    repeatStep (s₀.cfg.numWords + 3 + if s₀.cycleN % s₀.cfg.filtPeriodK = 0 then 1 else 0)
        (s.atStage (nextStage s₀.cfg s₀.cycleN .vsample))
      = andThen (filterStage s) serveFrame := by
  rw [nextStage_vsample, filterStage, filterCycle, same.cfg, same.cycleN]
  by_cases filter : s₀.cycleN % s₀.cfg.filtPeriodK = 0
  · rw [if_pos filter, if_pos filter, if_pos (decide_eq_true filter)]
    refine repeatStep_of_stage (i := .vsampleFilt) legal loop same nofun ?_ fun t same => ?_
    · exact issued_loop (s.atStage .vsampleFilt) (same.phase.trans loop)
    · exact repeatStep_fetch legal loop same start
  · rw [if_neg filter, if_neg filter, if_neg (by simpa using filter)]
    exact repeatStep_fetch legal loop same start

end AsSteps

end Cycle

/-- Settles O43: VSAMPLE's step, and then the steps of the stages after it. -/
theorem controlCycleIsItsSteps : Obligations.ControlCycleIsItsSteps := by
  intro s legal loop start
  rw [exec_controlCycle, Nat.add_right_comm _ 4]
  refine (congrArg (repeatStep _) (State.atStage_of_eq start).symm).trans ?_
  refine repeatStep_of_stage (i := .vsample) legal loop (.refl s) nofun (issued_loop (s.atStage .vsample) loop) ?_
  intro t same
  rw [Nat.add_right_comm _ _ 3]
  exact repeatStep_filter legal loop same start

section Liveness
/-! A step completes: the operation issued is well formed, and a well-formed operation completes. -/

variable {i : Instr} {s t : State}

/-- Under the transport's duty every frame that the next fetch sees is complete (20_memory R65, R76). -/
theorem State.transportOk.complete (h : s.transportOk) : ∀ f ∈ s.handedOver, f.length = s.frameSize := by
  obtain ⟨pending, script⟩ := h
  intro f hf
  rw [State.handedOver, List.mem_append, Option.mem_toList] at hf
  refine hf.elim (pending f) fun hf => ?_
  unfold State.delivered at hf
  cases deliveries : s.env.deliveries with
  | nil =>
    rw [deliveries, List.headD_nil] at hf
    split at hf
    · rw [List.mem_singleton.mp hf, State.freeFrame, List.length_map, List.length_range]
    · cases hf
  | cons fs rest =>
    rw [deliveries] at hf
    exact script fs (by simp [deliveries]) f hf

/-- A fetch empties the slot and takes one list off the script; no other operation touches either
(20_memory R76). -/
theorem Effect.keeps_transportOk (h : Effect i s t) (ok : s.transportOk) : t.transportOk := by
  obtain ⟨pending, script⟩ := ok
  have size : t.frameSize = s.frameSize := by rw [State.frameSize, h.cfg_eq, State.frameSize]
  rw [State.transportOk, size]
  cases h with
  | fetchNone => exact ⟨pending, fun fs hfs => script fs (List.mem_of_mem_tail hfs)⟩
  | fetchNew => exact ⟨nofun, fun fs hfs => script fs (List.mem_of_mem_tail hfs)⟩
  | _ => simpa using ⟨pending, script⟩

/-- A well-formed operation other than CONTROL_CYCLE answers a next state, if the files have the configured sizes
and every frame handed over is complete (60_exceptions R210). -/
theorem exec_completes (wf : i.wf s.cfg = true) (mains : s.mains.length = s.cfg.numMain)
    (subs : s.subs.length = s.cfg.numSub) (complete : ∀ f ∈ s.handedOver, f.length = s.frameSize)
    (single : i ≠ .controlCycle) : ∃ t, exec i s = .next t := by
  cases i with
  | mainDrive m d => exact execMainDrive_completes m d s (by simp [Instr.wf] at wf; omega)
  | subMotor k d => exact execSubMotor_completes k d s (by simp [Instr.wf] at wf; omega)
  | subSolOn k => exact solenoidSwitch_completes k true s (by simp [Instr.wf] at wf; omega)
  | subSolOff k => exact solenoidSwitch_completes k false s (by simp [Instr.wf] at wf; omega)
  | solenoidSwitch k on => exact solenoidSwitch_completes k on s (by simp [Instr.wf] at wf; omega)
  | subDispatch k d => exact exec_subDispatch_completes d (by simp [Instr.wf] at wf; omega)
  | configure =>
    rw [exec_configure]
    split <;> exact ⟨_, rfl⟩
  | startupGate =>
    rw [exec_startupGate]
    split <;> exact ⟨_, rfl⟩
  | fetchFrame =>
    obtain ⟨t, run, -⟩ := fetchTakesTheNewestFrame s complete
    exact ⟨t, run⟩
  | decode => exact ⟨_, execDecode_eq s⟩
  | controlCycle => exact absurd rfl single
  | powerEnable | vsample | vsampleFilt | slewLimit | sleep => exact ⟨_, rfl⟩

/-- The sequencer always has an operation: a slot of the loop has its decoded duty (44_decoder_and_cycle R189). -/
theorem State.Inv.exists_issued (inv : s.Inv) : ∃ i, issued s = .ok i := by
  cases phase : s.phase with
  | configure => exact ⟨.configure, by rw [issued, phase]⟩
  | gate => exact ⟨.startupGate, by rw [issued, phase]⟩
  | loop =>
    rw [issued_loop s phase]
    cases stage : s.stage with
    | slot n =>
      have inFrame := inv.slotInFrame n stage
      obtain ⟨c, at_c⟩ := exists_slotAt inFrame
      exact ⟨_, slotOperation_eq s n _ c at_c (duty_of_frameDuties (inv.dutiesDecoded n stage) inFrame)⟩
    | _ => exact ⟨_, rfl⟩

end Liveness

/-- Settles O49: the operation issued completes, O48 keeps the invariant, and its effect keeps the transport's
duty. -/
theorem theBlockNeverStops : Obligations.TheBlockNeverStops := by
  intro s inv ok
  obtain ⟨i, issue⟩ := inv.exists_issued
  have single := issued_ne_controlCycle s i issue
  obtain ⟨u, run⟩ := exec_completes ((issues_of_issued issue).wf inv) inv.mainFile inv.subFile ok.complete single
  have next : step s = .next (advance s u) := by rw [step_eq s i inv.cfgLegal issue, run, andThen_next]
  refine ⟨_, next, everyStepKeepsTheInvariant s _ inv next, ?_⟩
  have ok' := (exec_effect i s u single run).keeps_transportOk ok
  rw [advance_eq]
  exact ok'

/-- Any number of steps completes. -/
theorem repeatStep_completes {s : State} (inv : s.Inv) (ok : s.transportOk) (n : Nat) :
    ∃ t, repeatStep n s = .next t ∧ t.Inv ∧ t.transportOk := by
  induction n generalizing s with
  | zero => exact ⟨s, rfl, inv, ok⟩
  | succ n ih =>
    obtain ⟨u, next, inv', ok'⟩ := theBlockNeverStops s inv ok
    rw [repeatStep, next]
    exact ih inv' ok'

/-- Settles O42: the cycle is its steps (O43), and steps complete (O49). -/
theorem controlCycleCompletes : Obligations.ControlCycleCompletes := by
  intro s inv ok loop start
  obtain ⟨t, steps, inv', ok'⟩ := repeatStep_completes inv ok _
  have run := (controlCycleIsItsSteps s inv.cfgLegal loop start).symm.trans steps
  obtain ⟨cfg, loop', stage, cycleN, decoded, sampled⟩ := exec_controlCycle_next run loop
  exact ⟨t, run, inv', ok', cycleN, loop', stage.trans start, cfg, decoded, sampled⟩

/-- Settles O46, from the steps of O45 at both stages, and from where the filter stage is entered. -/
theorem filterRunsEveryKthCycle : Obligations.FilterRunsEveryKthCycle := by
  refine ⟨fun s legal loop start => ?_, fun s u loop next filter => ?_⟩
  · obtain ⟨-, -, sample, -⟩ := stepIssuesTheFixedSequence s legal
    obtain ⟨t, run⟩ : ∃ t, exec .vsample s = .next t := ⟨_, exec_vsample s⟩
    obtain ⟨cfg, phase, -⟩ := (exec_effect .vsample s t nofun run).sameCycle nofun nofun
    refine ⟨t, _, run, by rw [sample loop start, run, andThen_next], rfl, ?_⟩
    by_cases filter : s.cycleN % s.cfg.filtPeriodK = 0
    · simp only [if_pos filter]
      obtain ⟨-, -, -, filtered, -⟩ := stepIssuesTheFixedSequence (t.atStage .vsampleFilt) (cfg ▸ legal)
      exact filtered (phase.trans loop) rfl
    · simp only [if_neg filter]
      obtain ⟨-, -, -, -, fetch, -⟩ := stepIssuesTheFixedSequence (t.atStage .fetch) (cfg ▸ legal)
      exact fetch (phase.trans loop) rfl
  · obtain ⟨i, v, -, -, -, rfl⟩ := step_issues next
    have stage : (advance s v).stage = .vsampleFilt := (issues_of_issued filter).of_filter
    rw [advance_stage_loop loop] at stage
    exact nextStage_eq_vsampleFilt stage

section Power
/-! No channel operation and no write of CONFIGURE asserts the power stage (44_decoder_and_cycle R188). -/

theorem powerEnable_not_mem_configureEvents (c : Config) : .powerEnable ∉ configureEvents c := by
  simp [configureEvents]

theorem powerEnable_not_mem_movedSubEvents (cfg : Config) (v : Volts) (k : Nat) (c : SubChan) (d1 : Int) :
    .powerEnable ∉ movedSubEvents cfg v k c d1 := by
  unfold movedSubEvents
  split <;> simp

theorem powerEnable_not_mem_switched (cfg : Config) (k : Nat) (c : SubChan) (on : Bool) (now : Instant) :
    .powerEnable ∉ (switched cfg k c on now).2 := by
  obtain h | h | h | h := switched_cases cfg k c on now <;> cases on <;> simp [patternEvents, h]

/-- In the loop no operation adds an assertion of the power stage to the record. -/
theorem Effect.powerEnable_count {i : Instr} {s t : State} (h : Effect i s t) (notConfigure : i ≠ .configure)
    (notGate : i ≠ .startupGate) (notPower : i ≠ .powerEnable) :
    t.events.count .powerEnable = s.events.count .powerEnable := by
  cases h with
  | configureGate | configureLoop => exact absurd rfl notConfigure
  | gatePass | gateWait => exact absurd rfl notGate
  | power => exact absurd rfl notPower
  | mainMove m d s c hc =>
    rw [State.applyMain_eq (s.checkRange d) m _ c hc]
    simp
  | subMove k d i s c hi hc =>
    rw [State.applySub_eq (s.checkRange d) k c _ hc]
    simp [List.count_eq_zero_of_not_mem (powerEnable_not_mem_movedSubEvents _ _ _ _ _)]
  | solenoid k on i s c hi hc =>
    rw [State.solenoidAt_eq s.drawNow.2 k c on _ hc]
    simp [List.count_eq_zero_of_not_mem (powerEnable_not_mem_switched _ _ _ _ _)]
  | _ => rfl

end Power

/-- Settles O40: outside the loop `POWER_EN` is 0 and the operation issued may set it once; in the loop none
adds an assertion. -/
theorem powerEnableHappensOnce : Obligations.PowerEnableHappensOnce := by
  intro s t inv next once
  obtain ⟨i, u, issues, -, effect, rfl⟩ := step_issues next
  rw [advance_events, advance_powerEn]
  have power := inv.powerInLoop
  cases phase : s.phase with
  | configure =>
    cases issues.of_configure phase
    have quiet := List.count_eq_zero_of_not_mem (powerEnable_not_mem_configureEvents s.cfg)
    obtain ⟨-, rfl⟩ | ⟨-, rfl⟩ := effect.configure_cases <;> simp_all
  | gate =>
    cases issues.of_gate phase
    obtain rfl | rfl := effect.startupGate_cases <;> simp_all
  | loop =>
    obtain ⟨notConfigure, notGate, notPower⟩ := issues.of_loop phase
    rw [effect.powerEnable_count notConfigure notGate notPower, once,
      effect.powerEn_writer.resolve_left (by simp [notConfigure, notGate, notPower])]

end Sys2Proof.Machine
